-- ==== Sys2Proof/Word.lean ====
section
/-! DEFINITION. The word types of the block: 32-bit register and buffer words (00_scope.md R7, R13; 20_memory.md R74),
64-bit command and response words (30_encoding.md R100, R101), and the sequencer's code words (log 4). -/

namespace Sys2Proof

/-- A 32-bit register, holder, buffer or meter word (20_memory.md R74). -/
abbrev Word := BitVec 32

/-- A binary32 number, held as its IEEE 754 encoding: bit 31 sign, 30:23 exponent, 22:0 fraction (00_scope.md R7, R13). -/
abbrev F32 := BitVec 32

/-- A CMD64 command word (30_encoding.md R100). -/
abbrev CmdWord := BitVec 64

/-- An RSP64 response word (30_encoding.md R101). -/
abbrev RspWord := BitVec 64

/-- A code the chain sequencer dispatches on (UNIT8 R105, FKIND2 R106) with the operands its caller hands over above
it. DESIGN CHOICE (log 4): the spec gives the code's bits only, the place of the operands is the model's. -/
abbrev SeqWord := BitVec 144

end Sys2Proof
end

