-- ==== Sys2Proof/Syntax.lean ====
section
/-! DEFINITION. The instructions: one constructor for each row of spec/opcode_table.json (12 CMD64 commands, 15 UNIT8
units, 4 FKIND2 filter kinds, 38 INTERNAL operations), with the operands its rule names, and the names of the block's
ports, units and functional-unit instances. -/

namespace Sys2Proof

/-- The three command ports (30_encoding.md R100, 60_exceptions.md R312). -/
inductive Port where
  | audio | control | monitor
  deriving DecidableEq, Repr

/-- A channel of the sample buffer or of a delay memory: 0 left, 1 right (20_memory.md R71). -/
inductive Channel where
  | left | right
  deriving DecidableEq, Repr

/-- The three voicing families (10_state.md R35). -/
inductive Family where
  | cathode | filament | steel
  deriving DecidableEq, Repr

/-- The five categories, in execution order (30_encoding.md R105). -/
inductive Category where
  | distortion | filter | modulation | delay | reverb
  deriving DecidableEq, Repr

/-- The fifteen effect units (30_encoding.md R105). -/
inductive UnitId where
  | ember
  | velvet
  | drift
  | echo
  | haze
  | fracture
  | prism
  | phase
  | cascade
  | glisten
  | scorch
  | snarl
  | shred
  | grind
  | rust
  deriving DecidableEq, Repr

/-- The eighteen smoothers: three of the preamp and the `mix` of each unit (10_state.md R36). -/
inductive SmootherId where
  | drive | tone | out
  | mix (u : UnitId)
  deriving DecidableEq, Repr

/-- The fourteen filter instances (10_state.md R37). -/
inductive FilterId where
  | shelfL | shelfR | dcL | dcR
  | velvetL | velvetR | echoL | echoR | hazeL | hazeR
  | glistenL | glistenR | snarlL | snarlR
  deriving DecidableEq, Repr

/-- The eleven delay memories (10_state.md R38). -/
inductive DelayId where
  | drift | echo | hazeA | hazeB | phase | cascade
  | glistenM | glistenS | grind | rustA | rustB
  deriving DecidableEq, Repr

/-- The four filter kinds, codes 0 to 3 of FKIND2 (30_encoding.md R106). -/
inductive FilterKind where
  | lp | hp | bp | ls
  deriving DecidableEq, Repr

/-- The four level meters (10_state.md R41). -/
inductive MeterId where
  | inL | inR | outL | outR
  deriving DecidableEq, Repr

/-- The three configuration registers (10_state.md R31). -/
inductive CfgId where
  | sampleRate | maxBlock | numCh
  deriving DecidableEq, Repr

/-- The twenty parameter holders (10_state.md R33). -/
inductive HolderId where
  | drive | tone | output | bypass | preampType
  | mix (u : UnitId)
  deriving DecidableEq, Repr

/-- The twelve opcodes (30_encoding.md R103). -/
inductive Opcode where
  | nop | setcfg | getcfg | prepare | reset | process | wrbuf | rdbuf | getstatus | setparam | getparam | getmeter
  deriving DecidableEq, Repr

/-- One constructor for each row of the opcode table. -/
inductive Instr where
  -- CMD64 (R103)
  | nop
  | setcfg (sel : BitVec 8) (data : Word)
  | getcfg (sel : BitVec 8)
  | prepare
  | reset
  | process (n : Word)
  | wrbuf (sel : BitVec 8) (idx : BitVec 16) (data : Word)
  | rdbuf (sel : BitVec 8) (idx : BitVec 16)
  | getstatus
  | setparam (sel : BitVec 8) (data : Word)
  | getparam (sel : BitVec 8)
  | getmeter (sel : BitVec 8)
  -- UNIT8 (R105): UNIT.PROCESS of one unit over `n` frames
  | unitEmber (n : Word)
  | unitVelvet (n : Word)
  | unitDrift (n : Word)
  | unitEcho (n : Word)
  | unitHaze (n : Word)
  | unitFracture (n : Word)
  | unitPrism (n : Word)
  | unitPhase (n : Word)
  | unitCascade (n : Word)
  | unitGlisten (n : Word)
  | unitScorch (n : Word)
  | unitSnarl (n : Word)
  | unitShred (n : Word)
  | unitGrind (n : Word)
  | unitRust (n : Word)
  -- FKIND2 (R106): BQ.SETC of one kind
  | bqSetcLp (f : FilterId) (fc q sr : F32)
  | bqSetcHp (f : FilterId) (fc q sr : F32)
  | bqSetcBp (f : FilterId) (fc q sr : F32)
  | bqSetcLs (f : FilterId) (fc q sr g : F32)
  -- INTERNAL (R113)
  | svReset (v : SmootherId) (sr t : F32)
  | svSnap (v : SmootherId)
  | svSettarget (v : SmootherId) (t : F32)
  | svNext (v : SmootherId)
  | svCurrent (v : SmootherId)
  | bqProcess (f : FilterId) (x : F32)
  | bqReset (f : FilterId)
  | bqSetc (f : FilterId) (k : FilterKind) (fc q sr g : F32)
  | dlSize (d : DelayId) (tmax : F32) (guard : Nat) (sr : F32)
  | dlClear (d : DelayId)
  | dlWrite (d : DelayId) (vL vR : F32)
  | dlReadi (d : DelayId) (lag : Nat)
  | dlReadf (d : DelayId) (ch : Channel) (t : F32)
  | dlAdvance (d : DelayId)
  | hardclip (x : F32)
  | xfmrSat (x : F32)
  | softclip (x : F32)
  | emberShape (x : F32)
  | quant (x nb : F32)
  | lfoAdvance (p rate sr : F32)
  | lfoSine (p : F32)
  | lfoTri (p : F32)
  | envCoef (t sr : F32)
  | envStep (env lvl ca cr : F32)
  | gate (env : F32)
  | meterUpdate (k : MeterId) (pk : F32)
  | db2lin (o : F32)
  | rectify (x : F32)
  | xfade (dry wet m : F32)
  | unitProcess (u : UnitId) (n : Word)
  | unitSetmix (u : UnitId) (v : F32)
  | unitPrepare
  | unitReset
  | preamp (n : Word)
  | preampSetshelf (tn : F32)
  | applyParams
  | resetState
  | size
  deriving DecidableEq, Repr

end Sys2Proof
end

