-- ==== Sys2Proof/Decode.lean ====
section
/-! DEFINITION. Decoding and encoding (30_encoding.md): the CMD64 fields and opcode map, the unit tags, the filter kinds,
and the words of every instruction that has an encoding. -/

namespace Sys2Proof

/-! ## CMD64 (R100, R103) -/

/-- The `op` field, bits 63:56 (R100). -/
def opField (w : CmdWord) : BitVec 8 := w.extractLsb' 56 8
/-- The `sel` field, bits 55:48 (R100). -/
def selField (w : CmdWord) : BitVec 8 := w.extractLsb' 48 8
/-- The `idx` field, bits 47:32 (R100). -/
def idxField (w : CmdWord) : BitVec 16 := w.extractLsb' 32 16
/-- The `data` field, bits 31:0 (R100). -/
def dataField (w : CmdWord) : Word := w.extractLsb' 0 32

/-- A command word from its fields (R100). -/
def mkCmd (op sel : BitVec 8) (idx : BitVec 16) (data : Word) : CmdWord := op ++ sel ++ idx ++ data

/-- The byte of an opcode (R103). -/
def opcodeByte : Opcode → BitVec 8
  | .nop => 0x00#8
  | .setcfg => 0x01#8
  | .getcfg => 0x02#8
  | .prepare => 0x03#8
  | .reset => 0x04#8
  | .process => 0x05#8
  | .wrbuf => 0x06#8
  | .rdbuf => 0x07#8
  | .getstatus => 0x08#8
  | .setparam => 0x10#8
  | .getparam => 0x11#8
  | .getmeter => 0x20#8

/-- The opcode of a byte; the other 244 are reserved (R103, R107). -/
def opcodeOf (b : BitVec 8) : Option Opcode :=
  [Opcode.nop, .setcfg, .getcfg, .prepare, .reset, .process, .wrbuf, .rdbuf, .getstatus, .setparam, .getparam,
    .getmeter].find? fun o => opcodeByte o == b

/-- Which of `sel`, `idx`, `data` must be zero (R103, column MBZ). -/
def mustBeZero : Opcode → Bool × Bool × Bool
  | .nop => (true, true, true)
  | .setcfg => (false, true, false)
  | .getcfg => (false, true, true)
  | .prepare => (true, true, true)
  | .reset => (true, true, true)
  | .process => (true, true, false)
  | .wrbuf => (false, false, false)
  | .rdbuf => (false, false, true)
  | .getstatus => (true, true, true)
  | .setparam => (false, true, false)
  | .getparam => (false, true, true)
  | .getmeter => (false, true, true)

/-- A must-be-zero field of the opcode's row is not zero (R107, check 3). -/
def mbzBroken (op : Opcode) (w : CmdWord) : Bool :=
  ((mustBeZero op).1 && selField w != 0) || ((mustBeZero op).2.1 && idxField w != 0) ||
    ((mustBeZero op).2.2 && dataField w != 0)

/-- The instruction of an opcode with the fields of a word (R102, R103). -/
def instrOf (op : Opcode) (w : CmdWord) : Instr :=
  match op with
  | .nop => .nop
  | .setcfg => .setcfg (selField w) (dataField w)
  | .getcfg => .getcfg (selField w)
  | .prepare => .prepare
  | .reset => .reset
  | .process => .process (dataField w)
  | .wrbuf => .wrbuf (selField w) (idxField w) (dataField w)
  | .rdbuf => .rdbuf (selField w) (idxField w)
  | .getstatus => .getstatus
  | .setparam => .setparam (selField w) (dataField w)
  | .getparam => .getparam (selField w)
  | .getmeter => .getmeter (selField w)

/-- What a command word is (R107): an instruction, a reserved opcode, or an opcode with a must-be-zero field set. The
last two are told apart because the port check stands between them. -/
inductive CmdDecode where
  | instr (op : Opcode) (i : Instr)
  | reservedOp
  | badField (op : Opcode)
  deriving DecidableEq, Repr

/-- Decode a command word: checks 1 and 3 of R107. -/
def decodeCmd (w : CmdWord) : CmdDecode :=
  match opcodeOf (opField w) with
  | none => .reservedOp
  | some op => if mbzBroken op w then .badField op else .instr op (instrOf op w)

/-! ## UNIT8 (R105) and FKIND2 (R106) -/

/-- The fifteen units in ascending tag order (R105). -/
def allUnits : List UnitId :=
  [.ember, .velvet, .drift, .echo, .haze, .fracture, .prism, .phase, .cascade, .glisten, .scorch, .snarl, .shred,
    .grind, .rust]

/-- The tag of a unit, which is also the `sel` of its mix holder (R105). -/
def tagOf : UnitId → BitVec 8
  | .ember => 0x10#8
  | .velvet => 0x11#8
  | .drift => 0x12#8
  | .echo => 0x13#8
  | .haze => 0x14#8
  | .fracture => 0x20#8
  | .prism => 0x21#8
  | .phase => 0x22#8
  | .cascade => 0x23#8
  | .glisten => 0x24#8
  | .scorch => 0x30#8
  | .snarl => 0x31#8
  | .shred => 0x32#8
  | .grind => 0x33#8
  | .rust => 0x34#8

/-- The unit with a tag (R105). -/
def unitOfTag (tag : BitVec 8) : Option UnitId := allUnits.find? fun u => tagOf u == tag

/-- The instruction of a unit for a block of `n` frames. -/
def unitInstr (u : UnitId) (n : Word) : Instr :=
  match u with
  | .ember => .unitEmber n
  | .velvet => .unitVelvet n
  | .drift => .unitDrift n
  | .echo => .unitEcho n
  | .haze => .unitHaze n
  | .fracture => .unitFracture n
  | .prism => .unitPrism n
  | .phase => .unitPhase n
  | .cascade => .unitCascade n
  | .glisten => .unitGlisten n
  | .scorch => .unitScorch n
  | .snarl => .unitSnarl n
  | .shred => .unitShred n
  | .grind => .unitGrind n
  | .rust => .unitRust n

/-- The filter kind of a code byte: FKIND2 in bits 1:0, the bits above it zero (R106). -/
def kindOf (b : BitVec 8) : Option FilterKind :=
  if b = 0 then some .lp else if b = 1 then some .hp else if b = 2 then some .bp else if b = 3 then some .ls else none

/-- The code of a filter kind (R106). -/
def kindByte : FilterKind → BitVec 8
  | .lp => 0
  | .hp => 1
  | .bp => 2
  | .ls => 3

/-- The filter instances in the order of 10_state.md R37. The numbers are the model's (log 4). -/
def allFilters : List FilterId :=
  [.shelfL, .shelfR, .dcL, .dcR, .velvetL, .velvetR, .echoL, .echoR, .hazeL, .hazeR, .glistenL, .glistenR, .snarlL,
    .snarlR]

/-- The number of a filter instance in a sequencer word (log 4). -/
def filterByte : FilterId → BitVec 8
  | .shelfL => 0
  | .shelfR => 1
  | .dcL => 2
  | .dcR => 3
  | .velvetL => 4
  | .velvetR => 5
  | .echoL => 6
  | .echoR => 7
  | .hazeL => 8
  | .hazeR => 9
  | .glistenL => 10
  | .glistenR => 11
  | .snarlL => 12
  | .snarlR => 13

/-- The filter instance of a number (log 4). -/
def filterOf (b : BitVec 8) : Option FilterId := allFilters.find? fun f => filterByte f == b

/-- A sequencer word for a unit: the tag in bits 7:0, the block length in 39:8 (log 4). -/
def mkUnitWord (tag : BitVec 8) (n : Word) : SeqWord := (0#104 : BitVec 104) ++ n ++ tag

/-- A sequencer word for a coefficient computation: kind in bits 7:0, filter 15:8, then fc, q, sr, g (log 4). -/
def mkKindWord (k f : BitVec 8) (fc q sr g : F32) : SeqWord := g ++ sr ++ q ++ fc ++ f ++ k

/-- The BQ.SETC instruction of a kind. Only the low-shelf has a gain; the field is zero in the others' words. -/
def kindInstr (k : FilterKind) (f : FilterId) (fc q sr g : F32) : Option Instr :=
  match k with
  | .lp => if g = 0 then some (.bqSetcLp f fc q sr) else none
  | .hp => if g = 0 then some (.bqSetcHp f fc q sr) else none
  | .bp => if g = 0 then some (.bqSetcBp f fc q sr) else none
  | .ls => some (.bqSetcLs f fc q sr g)

/-- Decode a sequencer word (R105, R106). -/
def decodeSeq (w : SeqWord) : Option Instr :=
  match unitOfTag (w.extractLsb' 0 8) with
  | some u => if w.extractLsb' 40 104 = 0#104 then some (unitInstr u (w.extractLsb' 8 32)) else none
  | none =>
    match kindOf (w.extractLsb' 0 8), filterOf (w.extractLsb' 8 8) with
    | some k, some f =>
      kindInstr k f (w.extractLsb' 16 32) (w.extractLsb' 48 32) (w.extractLsb' 80 32) (w.extractLsb' 112 32)
    | _, _ => none

/-! ## Every encoding -/

/-- An encoded instruction: a command word, or a code of the sequencer. -/
inductive Code where
  | cmd (w : CmdWord)
  | seq (w : SeqWord)
  deriving DecidableEq, Repr

/-- Decode; `none` where no instruction has the code. -/
def decode : Code → Option Instr
  | .cmd w =>
    match decodeCmd w with
    | .instr _ i => some i
    | .reservedOp => none
    | .badField _ => none
  | .seq w => decodeSeq w

/-- Encode; `none` for the INTERNAL rows, which have no bit pattern (R113). -/
def encode : Instr → Option Code
  | .nop => some (.cmd (mkCmd 0x00#8 0 0 0))
  | .setcfg sel data => some (.cmd (mkCmd 0x01#8 sel 0 data))
  | .getcfg sel => some (.cmd (mkCmd 0x02#8 sel 0 0))
  | .prepare => some (.cmd (mkCmd 0x03#8 0 0 0))
  | .reset => some (.cmd (mkCmd 0x04#8 0 0 0))
  | .process n => some (.cmd (mkCmd 0x05#8 0 0 n))
  | .wrbuf sel idx data => some (.cmd (mkCmd 0x06#8 sel idx data))
  | .rdbuf sel idx => some (.cmd (mkCmd 0x07#8 sel idx 0))
  | .getstatus => some (.cmd (mkCmd 0x08#8 0 0 0))
  | .setparam sel data => some (.cmd (mkCmd 0x10#8 sel 0 data))
  | .getparam sel => some (.cmd (mkCmd 0x11#8 sel 0 0))
  | .getmeter sel => some (.cmd (mkCmd 0x20#8 sel 0 0))
  | .unitEmber n => some (.seq (mkUnitWord 0x10#8 n))
  | .unitVelvet n => some (.seq (mkUnitWord 0x11#8 n))
  | .unitDrift n => some (.seq (mkUnitWord 0x12#8 n))
  | .unitEcho n => some (.seq (mkUnitWord 0x13#8 n))
  | .unitHaze n => some (.seq (mkUnitWord 0x14#8 n))
  | .unitFracture n => some (.seq (mkUnitWord 0x20#8 n))
  | .unitPrism n => some (.seq (mkUnitWord 0x21#8 n))
  | .unitPhase n => some (.seq (mkUnitWord 0x22#8 n))
  | .unitCascade n => some (.seq (mkUnitWord 0x23#8 n))
  | .unitGlisten n => some (.seq (mkUnitWord 0x24#8 n))
  | .unitScorch n => some (.seq (mkUnitWord 0x30#8 n))
  | .unitSnarl n => some (.seq (mkUnitWord 0x31#8 n))
  | .unitShred n => some (.seq (mkUnitWord 0x32#8 n))
  | .unitGrind n => some (.seq (mkUnitWord 0x33#8 n))
  | .unitRust n => some (.seq (mkUnitWord 0x34#8 n))
  | .bqSetcLp f fc q sr => some (.seq (mkKindWord 0 (filterByte f) fc q sr 0))
  | .bqSetcHp f fc q sr => some (.seq (mkKindWord 1 (filterByte f) fc q sr 0))
  | .bqSetcBp f fc q sr => some (.seq (mkKindWord 2 (filterByte f) fc q sr 0))
  | .bqSetcLs f fc q sr g => some (.seq (mkKindWord 3 (filterByte f) fc q sr g))
  | .svReset _ _ _ => none
  | .svSnap _ => none
  | .svSettarget _ _ => none
  | .svNext _ => none
  | .svCurrent _ => none
  | .bqProcess _ _ => none
  | .bqReset _ => none
  | .bqSetc _ _ _ _ _ _ => none
  | .dlSize _ _ _ _ => none
  | .dlClear _ => none
  | .dlWrite _ _ _ => none
  | .dlReadi _ _ => none
  | .dlReadf _ _ _ => none
  | .dlAdvance _ => none
  | .hardclip _ => none
  | .xfmrSat _ => none
  | .softclip _ => none
  | .emberShape _ => none
  | .quant _ _ => none
  | .lfoAdvance _ _ _ => none
  | .lfoSine _ => none
  | .lfoTri _ => none
  | .envCoef _ _ => none
  | .envStep _ _ _ _ => none
  | .gate _ => none
  | .meterUpdate _ _ => none
  | .db2lin _ => none
  | .rectify _ => none
  | .xfade _ _ _ => none
  | .unitProcess _ _ => none
  | .unitSetmix _ _ => none
  | .unitPrepare => none
  | .unitReset => none
  | .preamp _ => none
  | .preampSetshelf _ => none
  | .applyParams => none
  | .resetState => none
  | .size => none

/-- The instruction of a word of spec/opcode_table.json: the table's one-byte codes (UNIT8, FKIND2) are sequencer
codes, its wider words command words; the bits above `nbits` are zero. -/
def decodeTableWord (nbits w : Nat) : Option Instr :=
  if nbits ≤ 8 then decode (.seq (BitVec.ofNat 144 (w % 2 ^ nbits))) else decode (.cmd (BitVec.ofNat 64 (w % 2 ^ nbits)))

end Sys2Proof
end

