-- ==== Sys2Proof/Config.lean ====
section
/-! DEFINITION. The implementation parameters of 00_scope.md R5: the decided ones as values, the OPEN ones as opaque
constants. An opaque constant has no body: nothing can evaluate it, so whatever is proved holds for every value of it.
The ranges and properties the spec gives the open parameters are imposed in Machine/Numerics.lean (logs 6, 7). -/

namespace Sys2Proof

/-- `FS_MIN` = 8000.0 (R5, D10). -/
def Config.fsMin : F32 := 0x45FA0000#32
/-- `FS_MAX` = 192000.0 (R5, D10). -/
def Config.fsMax : F32 := 0x483B8000#32
/-- `FS_DEFAULT` = 44100.0 (R5, D10). -/
def Config.fsDefault : F32 := 0x472C4400#32
/-- `MAXBLK_MAX`: frames in each channel of the sample buffer (R5, D11). -/
def Config.maxblkMax : Nat := 8192
/-- `Q_SHELF` = 0.70710678 (R5, D21). -/
def Config.qShelf : F32 := 0x3F3504F3#32
/-- `Q_DC` = 0.70710678 (R5, D21). -/
def Config.qDc : F32 := 0x3F3504F3#32
/-- `Q_FIXED` = 0.70710678 (R5, D21). -/
def Config.qFixed : F32 := 0x3F3504F3#32
/-- `GUARD` = 4 (R5, D24). -/
def Config.guard : Nat := 4

/-- The OPEN `T_RAMP_PRE` before its range is imposed (R5, D17). Log 7. -/
opaque Config.tRampPreRaw : F32
/-- The OPEN `T_RAMP_MIX` before its range is imposed (R5, D17). Log 7. -/
opaque Config.tRampMixRaw : F32
/-- The OPEN `METER_DECAY` before its range is imposed (R5, D42). Log 7. -/
opaque Config.meterDecayRaw : F32
/-- The OPEN `GLISTEN_FB` before its range is imposed (R5, D34). Log 7. -/
opaque Config.glistenFbRaw : F32
/-- The OPEN `RUST_FB` before its range is imposed (R5, D39). Log 7. -/
opaque Config.rustFbRaw : F32

/-- `tanh_f` of `NUM` before R8's properties are imposed (R8, D3, U7). Log 6. -/
opaque Config.tanhRaw : F32 → F32
/-- `sin_f` of `NUM` before R8's properties are imposed. Log 6. -/
opaque Config.sinRaw : F32 → F32
/-- `cos_f` of `NUM` before R8's properties are imposed. Log 6. -/
opaque Config.cosRaw : F32 → F32
/-- `exp_f` of `NUM` before R8's properties are imposed. Log 6. -/
opaque Config.expRaw : F32 → F32
/-- `exp2_f` of `NUM` before R8's properties are imposed. Log 6. -/
opaque Config.exp2Raw : F32 → F32
/-- `pow10_f` of `NUM` before R8's properties are imposed. Log 6. -/
opaque Config.pow10Raw : F32 → F32

/-- The bits of a NaN result of operation number `op` on the given operands: IEEE 754 fixes none (free value, log 8). -/
opaque Config.nanBits : Nat → F32 → F32 → F32

/-- What `floor_int` and `ceil_int` give for an operand outside the domain R11 states (free value, log 9). -/
opaque Config.intOutside : F32 → Nat

/-- What `f32` gives for an integer outside the domain R11 states, `abs(k) < 2^24` (free value, log 33). -/
opaque Config.f32Outside : Int → F32

/-- The arbiter's choice at the `k`-th served command, reduced modulo the number of waiting ports (20_memory.md R78,
U2: any order; free value, log 3). -/
opaque Config.arbiter : Nat → Nat

end Sys2Proof
end

