-- ==== Sys2Proof/Machine/Float.lean ====
section
/-! DEFINITION. binary32 arithmetic (00_scope.md R7, R9, R11): exact result, one rounding to nearest even, flush to zero
and denormals are zero. A finite number is held exactly as an integer count of units of 2^-149. -/

namespace Sys2Proof.Machine

open Sys2Proof

/-- Sign bit. -/
def fSign (x : F32) : Bool := x.getLsbD 31

/-- Biased exponent, bits 30:23. -/
def fExpo (x : F32) : Nat := x.toNat / 2 ^ 23 % 2 ^ 8

/-- Fraction, bits 22:0. -/
def fFrac (x : F32) : Nat := x.toNat % 2 ^ 23

/-- A NaN encoding. -/
def isNaN (x : F32) : Bool := fExpo x == 255 && fFrac x != 0

/-- An infinity. -/
def isInf (x : F32) : Bool := fExpo x == 255 && fFrac x == 0

/-- Finite: a valid sample (R10). -/
def isFin (x : F32) : Bool := fExpo x != 255

/-- The encoding with the sign `s` and the 31 bits `mag`. -/
def fPack (s : Bool) (mag : Nat) : F32 := BitVec.ofNat 32 (mag + if s then 2 ^ 31 else 0)

/-- A zero of the sign `s`. -/
def signedZero (s : Bool) : F32 := if s then 0x80000000#32 else 0x00000000#32

/-- How every datapath operation reads an operand: a subnormal is a zero of the same sign (R7). -/
def daz (x : F32) : F32 := if fExpo x = 0 then signedZero (fSign x) else x

/-- The magnitude of a finite number in units of 2^-149, a subnormal read as zero (R7). -/
def fUnits (x : F32) : Nat := if fExpo x = 0 then 0 else (2 ^ 23 + fFrac x) * 2 ^ (fExpo x - 1)

/-- The signed value of a finite number in units of 2^-149. -/
def fValue (x : F32) : Int := if fSign x then -(fUnits x : Int) else fUnits x

/-- `num / den` units of 2^-149 rounded to the nearest binary32 magnitude, ties to even; a result below the smallest
normal is flushed to zero after the rounding (R7; log 11), one beyond the largest finite number is the infinity. -/
def roundMag (num den : Nat) : Nat :=
  let k := Nat.log2 (num / den) - 23
  let d := den * 2 ^ k
  let q := num / d
  let r := num % d
  let m := if d < 2 * r ∨ (2 * r = d ∧ q % 2 = 1) then q + 1 else q
  let mag := k * 2 ^ 23 + m
  if mag < 2 ^ 23 then 0 else if 0x7F800000 ≤ mag then 0x7F800000 else mag

/-- The rounded number of sign `s` and magnitude `num / den` units (R7). -/
def fRound (s : Bool) (num den : Nat) : F32 := fPack s (roundMag num den)

/-- A quiet NaN; its sign and payload are free (log 8). Operations are numbered 0 `+`, 1 `*`, 2 `/`, 3 `sqrt`,
4 `round_haz`. -/
def fNaN (op : Nat) (a b : F32) : F32 := 0x7FC00000#32 ||| Config.nanBits op a b

/-- Sign flip, exact (42_biquad.md R175). -/
def fNeg (x : F32) : F32 := x ^^^ 0x80000000#32

/-- binary32 addition (R7). -/
def fAdd (a b : F32) : F32 :=
  if isNaN a || isNaN b then fNaN 0 a b
  else if isInf a then (if isInf b && (fSign a != fSign b) then fNaN 0 a b else a)
  else if isInf b then b
  else
    let z := fValue a + fValue b
    if z = 0 then signedZero (fSign a && fSign b) else fRound (decide (z < 0)) z.natAbs 1

/-- binary32 subtraction (R7). -/
def fSub (a b : F32) : F32 := fAdd a (fNeg b)

/-- binary32 multiplication (R7). -/
def fMul (a b : F32) : F32 :=
  let s := fSign a != fSign b
  if isNaN a || isNaN b then fNaN 1 a b
  else if isInf a || isInf b then
    (if (isFin a && fUnits a == 0) || (isFin b && fUnits b == 0) then fNaN 1 a b else fPack s 0x7F800000)
  else fRound s (fUnits a * fUnits b) (2 ^ 149)

/-- binary32 division (R7). A finite number over a zero is an infinity, a zero over a zero no number (IEEE 754). -/
def fDiv (a b : F32) : F32 :=
  let s := fSign a != fSign b
  if isNaN a || isNaN b then fNaN 2 a b
  else if isInf a then (if isInf b then fNaN 2 a b else fPack s 0x7F800000)
  else if isInf b then signedZero s
  else if fUnits b = 0 then (if fUnits a = 0 then fNaN 2 a b else fPack s 0x7F800000)
  else fRound s (fUnits a * 2 ^ 149) (fUnits b)

/-- The integer square root of `n`, searched bit by bit below the bit `k` from the partial root `r`. -/
def isqrtFrom : Nat → Nat → Nat → Nat
  | 0, _, r => r
  | k + 1, n, r => if (r + 2 ^ k) * (r + 2 ^ k) ≤ n then isqrtFrom k n (r + 2 ^ k) else isqrtFrom k n r

/-- The integer square root of a number below 2^448. -/
def isqrt (n : Nat) : Nat := isqrtFrom 224 n 0

/-- binary32 square root (R7): the floor of the root in units, with a sticky half unit when it is not exact. -/
def fSqrt (a : F32) : F32 :=
  if isNaN a then fNaN 3 a 0
  else if isFin a && fUnits a == 0 then signedZero (fSign a)
  else if fSign a then fNaN 3 a 0
  else if isInf a then a
  else
    let n := fUnits a * 2 ^ 149
    let r := isqrt n
    fRound false (2 * r + if r * r = n then 0 else 1) 2

/-- An integer that orders the encodings of numbers as the numbers are ordered (`-0` and `+0` alike). -/
def fKey (x : F32) : Int := if fSign x then -((x.toNat % 2 ^ 31 : Nat) : Int) else ((x.toNat % 2 ^ 31 : Nat) : Int)

/-- IEEE 754 `a < b` (R9). -/
def fLt (a b : F32) : Bool := !isNaN a && !isNaN b && decide (fKey a < fKey b)

/-- IEEE 754 `a <= b` (R9). -/
def fLe (a b : F32) : Bool := !isNaN a && !isNaN b && decide (fKey a ≤ fKey b)

/-- IEEE 754 `a == b` (R9). -/
def fEq (a b : F32) : Bool := !isNaN a && !isNaN b && decide (fKey a = fKey b)

/-- `a < b` in the datapath: subnormal operands read as zero (R7, R9; log 10). -/
def dLt (a b : F32) : Bool := fLt (daz a) (daz b)

/-- `a >= b` in the datapath (log 10). -/
def dGe (a b : F32) : Bool := fLe (daz b) (daz a)

/-- `a == b` in the datapath (log 10). -/
def dEq (a b : F32) : Bool := fEq (daz a) (daz b)

/-- `abs(x)`: the sign bit cleared (R9). -/
def dAbs (x : F32) : F32 := daz x &&& 0x7FFFFFFF#32

/-- `max(a, b)` is `if a > b then a else b` (R9). -/
def dMax (a b : F32) : F32 := if dLt b a then daz a else daz b

/-- `min(a, b)` is `if a < b then a else b` (R9). -/
def dMin (a b : F32) : F32 := if dLt a b then daz a else daz b

/-- `clamp(v, lo, hi)` (R9). -/
def dClamp (v lo hi : F32) : F32 := if dLt v lo then daz lo else if dLt hi v then daz hi else daz v

/-- `copysign(m, s)`: `m` with the sign bit of `s` (R9). -/
def dCopysign (m s : F32) : F32 := (daz m &&& 0x7FFFFFFF#32) ||| (s &&& 0x80000000#32)

/-- `f32(k)` (R11): exact where `abs(k) < 2^24`, which is all R11 states; a free value beyond (log 33). -/
def fOfInt (k : Int) : F32 :=
  if k.natAbs < 2 ^ 24 then fRound (decide (k < 0)) (k.natAbs * 2 ^ 149) 1 else Config.f32Outside k

/-- `f32(k)` of a register (R11, 41_smoother.md R162): free from 2^24 up (log 33). -/
def fOfNat (k : Nat) : F32 := fOfInt k

/-- `floor_int(v)`: the largest integer not above `v` (R11); free for a value that is not finite (log 9). -/
def floorInt (x : F32) : Int := if isFin x then fValue x / 2 ^ 149 else Config.intOutside x

/-- `ceil_int(v)` for a register: the smallest integer not below `v` (R11); free where that is no natural number
(log 9). -/
def ceilNat (x : F32) : Nat :=
  if isFin x && decide (0 ≤ fValue x) then (fUnits x + (2 ^ 149 - 1)) / 2 ^ 149 else Config.intOutside x

/-- `floor_int(v)` for a register (R11); free where that is no natural number (log 9). -/
def floorNat (x : F32) : Nat :=
  if isFin x && decide (0 ≤ fValue x) then fUnits x / 2 ^ 149 else Config.intOutside x

/-- `round_haz(v)`: the nearest integer, ties away from zero, as a binary32 number (R11). The sign of a zero result is
the operand's (R209: QUANT is odd; log 12). -/
def roundHaz (x : F32) : F32 :=
  if isNaN x then fNaN 4 x 0
  else if isInf x then x
  else fRound (fSign x) ((fUnits x + 2 ^ 148) / 2 ^ 149 * 2 ^ 149) 1

end Sys2Proof.Machine
end

