-- ==== Sys2Proof/Machine/State.lean ====
section
/-! DEFINITION. The state of the block as plain data: every register and memory of 10_state.md R30 to R42, the ports of
30_encoding.md R100 and R101, and three fields of the model's own (logs 3, 4, 5), with its power-on value. -/

namespace Sys2Proof.Machine

open Sys2Proof

/-- The words of one array, by word index: strictly rising indices (`Words.sorted`, Machine/Memory.lean). What an
unlisted index reads as is said by the array that holds the list. The cells are words because no space of the block is
byte-addressed (20_memory.md R70, R74; log 1). -/
abbrev Words := List (Nat × Word)

/-- A smoother register group (10_state.md R36). -/
structure Smoother where
  current : F32
  target : F32
  stepsRemaining : Nat
  increment : F32
  numSteps : Nat
  deriving DecidableEq, Repr

/-- A filter register group (10_state.md R37): five coefficients and four history words. -/
structure Biquad where
  b0 : F32
  b1 : F32
  b2 : F32
  a1 : F32
  a2 : F32
  x1 : F32
  x2 : F32
  y1 : F32
  y2 : F32
  deriving DecidableEq, Repr

/-- A delay memory (10_state.md R38). An unlisted word of `bufL` or `bufR` reads +0.0 (log 18). -/
structure DelayLine where
  bufL : Words
  bufR : Words
  writePos : Nat
  cap : Nat
  deriving DecidableEq, Repr

/-- The PreampState (10_state.md R36, R37; 48_preamp.md). -/
structure Preamp where
  drive : Smoother
  tone : Smoother
  out : Smoother
  shelfL : Biquad
  shelfR : Biquad
  dcL : Biquad
  dcR : Biquad
  deriving DecidableEq, Repr

/-- The registers of Ember (45_units_cathode.md R234), 10_state.md R36 to R40. -/
structure Ember where
  mix : Smoother
  prevL : F32
  prevR : F32
  deriving DecidableEq, Repr

/-- The registers of Velvet (R235), 10_state.md R36 to R40. -/
structure Velvet where
  mix : Smoother
  fL : Biquad
  fR : Biquad
  deriving DecidableEq, Repr

/-- The registers of Drift (R236), 10_state.md R36 to R40. -/
structure Drift where
  mix : Smoother
  d : DelayLine
  p : F32
  deriving DecidableEq, Repr

/-- The registers of Echo (R237), 10_state.md R36 to R40. -/
structure Echo where
  mix : Smoother
  d : DelayLine
  p : F32
  fL : Biquad
  fR : Biquad
  deriving DecidableEq, Repr

/-- The registers of Haze (R238), 10_state.md R36 to R40. -/
structure Haze where
  mix : Smoother
  combA : DelayLine
  combB : DelayLine
  fL : Biquad
  fR : Biquad
  lagA : Nat
  lagB : Nat
  deriving DecidableEq, Repr

/-- The registers of Fracture (46_units_filament.md R250), 10_state.md R36 to R40. -/
structure Fracture where
  mix : Smoother
  deriving DecidableEq, Repr

/-- The registers of Prism (R251), 10_state.md R36 to R40. -/
structure Prism where
  mix : Smoother
  zL : F32
  zR : F32
  deriving DecidableEq, Repr

/-- The registers of Phase (R252), 10_state.md R36 to R40. -/
structure Phase where
  mix : Smoother
  d : DelayLine
  p : F32
  deriving DecidableEq, Repr

/-- The registers of Cascade (R253), 10_state.md R36 to R40. -/
structure Cascade where
  mix : Smoother
  d : DelayLine
  lag0 : Nat
  lag1 : Nat
  lag2 : Nat
  lag3 : Nat
  deriving DecidableEq, Repr

/-- The registers of Glisten (R254): main comb, shimmer buffer, shimmer read index, 10_state.md R36 to R40. -/
structure Glisten where
  mix : Smoother
  main : DelayLine
  shim : DelayLine
  shimR : Nat
  fL : Biquad
  fR : Biquad
  lagM : Nat
  deriving DecidableEq, Repr

/-- The registers of Scorch (47_units_steel.md R265), 10_state.md R36 to R40. -/
structure Scorch where
  mix : Smoother
  deriving DecidableEq, Repr

/-- The registers of Snarl (R266), 10_state.md R36 to R40. -/
structure Snarl where
  mix : Smoother
  fL : Biquad
  fR : Biquad
  deriving DecidableEq, Repr

/-- The registers of Shred (R267), 10_state.md R36 to R40. -/
structure Shred where
  mix : Smoother
  p : F32
  deriving DecidableEq, Repr

/-- The registers of Grind (R268), 10_state.md R36 to R40. -/
structure Grind where
  mix : Smoother
  d : DelayLine
  heldL : F32
  heldR : F32
  cnt : Nat
  lag : Nat
  deriving DecidableEq, Repr

/-- The registers of Rust (R269), 10_state.md R36 to R40. -/
structure Rust where
  mix : Smoother
  combA : DelayLine
  combB : DelayLine
  env : F32
  lagA : Nat
  lagB : Nat
  ca : F32
  cr : F32
  deriving DecidableEq, Repr

/-- The fifteen units; nothing is shared between two of them (10_state.md R30). -/
structure Units where
  ember : Ember
  velvet : Velvet
  drift : Drift
  echo : Echo
  haze : Haze
  fracture : Fracture
  prism : Prism
  phase : Phase
  cascade : Cascade
  glisten : Glisten
  scorch : Scorch
  snarl : Snarl
  shred : Shred
  grind : Grind
  rust : Rust
  deriving DecidableEq, Repr

/-- The configuration registers (10_state.md R31). -/
structure CfgRegs where
  sampleRate : Word
  maxBlock : Word
  numCh : Word
  deriving DecidableEq, Repr

/-- The twenty parameter holders (10_state.md R33). -/
structure Holders where
  drive : Word
  tone : Word
  output : Word
  bypass : Word
  preampType : Word
  cathEmber : Word
  cathVelvet : Word
  cathDrift : Word
  cathEcho : Word
  cathHaze : Word
  filFracture : Word
  filPrism : Word
  filPhase : Word
  filCascade : Word
  filGlisten : Word
  steelScorch : Word
  steelSnarl : Word
  steelShred : Word
  steelGrind : Word
  steelRust : Word
  deriving DecidableEq, Repr

/-- The STATUS bits that are no mirror of another register (10_state.md R34; log 23). -/
structure Status where
  prepared : Bool
  eIllegal : Bool
  eSel : Bool
  eNotPrep : Bool
  eLen : Bool
  eIndex : Bool
  ePort : Bool
  deriving DecidableEq, Repr

/-- The level-meter registers (10_state.md R41). -/
structure Meters where
  inL : F32
  inR : F32
  outL : F32
  outR : F32
  deriving DecidableEq, Repr

/-- The sample buffer (10_state.md R42). An unlisted word holds no value (R49, U4; log 13). -/
structure SampleBuffer where
  left : Words
  right : Words
  deriving DecidableEq, Repr

/-- One command port: the command words issued and not yet served, first issued first, and the response words sent,
oldest first (30_encoding.md R100, R101; log 2). -/
structure PortIO where
  commands : List CmdWord
  responses : List RspWord
  deriving DecidableEq, Repr

/-- The six refusal codes of a command, returned in its response (60_exceptions.md R301). They are no stop. -/
inductive Err where
  | illegal | sel | notPrep | len | index | port
  deriving DecidableEq, Repr

/-- Where the model stops although no rule of the spec is broken by a port. All are safe: the spec gives no effect. -/
inductive Fault where
  /-- Raised by PREAMP, UNIT.* and UNIT.PROCESS called with a block longer than the sample buffer: 20_memory.md R71
  gives no word at an index of 8192 or more. Not reachable through PROCESS after PREPARE. Safe. Log 27. -/
  | bufferRange
  /-- Raised by a DL.* operation, or a unit that owns a delay memory, before anything sized that memory (`cap` = 0):
  `a mod c` is defined for `c > 0` only (00_scope.md R11). Not reachable through PROCESS after PREPARE. Safe. Log 17. -/
  | delayUnsized
  /-- Raised by `step` when the sequencer's slot holds a code that is no unit tag and no filter kind (30_encoding.md
  R105, R106); nothing in the block puts one there. Safe. Log 21. -/
  | reservedCode
  deriving DecidableEq, Repr

/-- What the spec asks a model to refuse, and the refusal of an arm without a meaning. -/
inductive Refusal where
  /-- Raised by an arm of `exec` that has no meaning yet. Safe. -/
  | notModelled (mnemonic : String)
  /-- Raised by RDBUF of a buffer word that nothing has written since power-on, and by a non-bypassed PROCESS (or a
  stage of one called alone) that reads one: 10_state.md R49, 93_implementation_defined.md U4. Safe. Log 13. -/
  | unwrittenWord
  /-- Raised by a non-bypassed PROCESS that reads a word which is not finite, and by a PROCESS in which the result of an
  operation is not finite: 00_scope.md R10, U3. Safe. Log 14. -/
  | nonFinite
  deriving DecidableEq, Repr

/-- The state of the block (10_state.md R30). -/
structure State where
  /-- CFG registers (R31). -/
  cfg : CfgRegs
  /-- The effective sample rate (R32). -/
  sr : F32
  /-- The effective maximum block length (R32). -/
  maxblk : Nat
  /-- The parameter holders (R33). -/
  holders : Holders
  /-- STATUS (R34), less its mirrors. -/
  status : Status
  /-- The `bypass` value the previous PROCESS or PREPARE latched (R35). -/
  bypassPrev : Bool
  /-- The active family (R35). -/
  family : Family
  /-- PreampState. -/
  pre : Preamp
  /-- The fifteen units. -/
  units : Units
  /-- The level meters (R41). -/
  meters : Meters
  /-- The sample buffer (R42). -/
  buf : SampleBuffer
  /-- The audio port (60_exceptions.md R312). -/
  audio : PortIO
  /-- The control port. -/
  control : PortIO
  /-- The monitor port. -/
  monitor : PortIO
  /-- The MODEL's own: the port that issued the command being executed; a response goes there (log 28). -/
  granted : Port
  /-- The MODEL's own: how many commands have been served, the argument of the free arbiter (log 3). -/
  serial : Nat
  /-- The MODEL's own: codes handed to the chain sequencer from outside a PROCESS (log 4). -/
  dispatch : List SeqWord
  /-- The MODEL's own: the result wires of the last operation executed by name (log 5). -/
  wires : List F32
  deriving DecidableEq, Repr

/-- A smoother whose fields are all zero (R49). -/
def Smoother.zero : Smoother :=
  { current := 0, target := 0, stepsRemaining := 0, increment := 0, numSteps := 0 }

/-- A filter before PREPARE. DESIGN CHOICE: zero (R49 leaves it unspecified; log 16). -/
def Biquad.zero : Biquad :=
  { b0 := 0, b1 := 0, b2 := 0, a1 := 0, a2 := 0, x1 := 0, x2 := 0, y1 := 0, y2 := 0 }

/-- A delay memory before PREPARE. DESIGN CHOICE: not sized, every word +0.0 (R49 leaves it unspecified; logs 16, 18). -/
def DelayLine.zero : DelayLine := { bufL := [], bufR := [], writePos := 0, cap := 0 }

/-- The preamp before PREPARE. -/
def Preamp.zero : Preamp :=
  { drive := .zero, tone := .zero, out := .zero, shelfL := .zero, shelfR := .zero, dcL := .zero, dcR := .zero }

/-- The units before PREPARE: smoothers as R49 says, the rest zero (log 16). -/
def Units.zero : Units :=
  { ember := { mix := .zero, prevL := 0, prevR := 0 },
    velvet := { mix := .zero, fL := .zero, fR := .zero },
    drift := { mix := .zero, d := .zero, p := 0 },
    echo := { mix := .zero, d := .zero, p := 0, fL := .zero, fR := .zero },
    haze := { mix := .zero, combA := .zero, combB := .zero, fL := .zero, fR := .zero, lagA := 0, lagB := 0 },
    fracture := { mix := .zero },
    prism := { mix := .zero, zL := 0, zR := 0 },
    phase := { mix := .zero, d := .zero, p := 0 },
    cascade := { mix := .zero, d := .zero, lag0 := 0, lag1 := 0, lag2 := 0, lag3 := 0 },
    glisten := { mix := .zero, main := .zero, shim := .zero, shimR := 0, fL := .zero, fR := .zero, lagM := 0 },
    scorch := { mix := .zero },
    snarl := { mix := .zero, fL := .zero, fR := .zero },
    shred := { mix := .zero, p := 0 },
    grind := { mix := .zero, d := .zero, heldL := 0, heldR := 0, cnt := 0, lag := 0 },
    rust := { mix := .zero, combA := .zero, combB := .zero, env := 0, lagA := 0, lagB := 0, ca := 0, cr := 0 } }

/-- Power-on reset (10_state.md R49, 70_reset_and_hazards.md R330). Where R49 says unspecified the value is this
model's (logs 13, 16, 18). -/
def State.reset : State :=
  { cfg := { sampleRate := 0, maxBlock := 0, numCh := 0 }
    sr := 0
    maxblk := 0
    holders :=
      { drive := 0, tone := 0, output := 0, bypass := 0, preampType := 0,
        cathEmber := 0, cathVelvet := 0, cathDrift := 0, cathEcho := 0, cathHaze := 0, filFracture := 0, filPrism := 0, filPhase := 0, filCascade := 0, filGlisten := 0, steelScorch := 0, steelSnarl := 0, steelShred := 0, steelGrind := 0, steelRust := 0 }
    status :=
      { prepared := false, eIllegal := false, eSel := false, eNotPrep := false, eLen := false, eIndex := false,
        ePort := false }
    bypassPrev := false
    family := .cathode
    pre := .zero
    units := .zero
    meters := { inL := 0, inR := 0, outL := 0, outR := 0 }
    buf := { left := [], right := [] }
    audio := { commands := [], responses := [] }
    control := { commands := [], responses := [] }
    monitor := { commands := [], responses := [] }
    granted := .audio
    serial := 0
    dispatch := []
    wires := [] }

end Sys2Proof.Machine
end

