-- ==== Sys2Proof/Machine/Memory.lean ====
section
/-! DEFINITION. The word memories: one array as a sorted list, the sample buffer (20_memory.md R71) and the words of a
delay memory (R87), each with what an unlisted word reads as. -/

namespace Sys2Proof.Machine

open Sys2Proof

/-- The listed word at index `k`. -/
def Words.get? : Words → Nat → Option Word
  | [], _ => none
  | (a, v) :: t, k => if a = k then some v else Words.get? t k

/-- List the word `x` at index `k`, in order. -/
def Words.put : Words → Nat → Word → Words
  | [], k, x => [(k, x)]
  | (a, v) :: t, k, x =>
    if k < a then (k, x) :: (a, v) :: t else if k = a then (k, x) :: t else (a, v) :: Words.put t k x

/-- Unlist index `k`. -/
def Words.del (w : Words) (k : Nat) : Words := w.filter fun c => c.1 != k

/-- The indices rise strictly. -/
def Words.sorted : Words → Bool
  | [] => true
  | [_] => true
  | c :: d :: t => decide (c.1 < d.1) && Words.sorted (d :: t)

/-- A word of a delay memory: an unlisted word reads +0.0 (log 18). -/
def Words.dlyGet (w : Words) (k : Nat) : F32 := (w.get? k).getD 0

/-- Write a word of a delay memory; +0.0 is what an unlisted word reads as, so it is not listed. -/
def Words.dlySet (w : Words) (k : Nat) (x : F32) : Words := if x = 0 then w.del k else w.put k x

/-- The canonical form of a delay memory's words: sorted, no listed +0.0. -/
def Words.dlyWf (w : Words) : Bool := w.sorted && w.all fun c => c.2 != 0

/-- The words 0 to `cap - 1` made +0.0 (43_delay_line.md R191). Words at `cap` and above are never addressed
(10_state.md R38) and stay. -/
def Words.dlyClear (w : Words) (cap : Nat) : Words := w.filter fun c => decide (cap ≤ c.1)

/-- One channel of the sample buffer. -/
def SampleBuffer.chan (b : SampleBuffer) : Channel → Words
  | .left => b.left
  | .right => b.right

/-- `BufRead(ch, i)` (20_memory.md R71): `none` where nothing has written the word since power-on (R49). -/
def SampleBuffer.get? (b : SampleBuffer) (ch : Channel) (i : Nat) : Option Word := (b.chan ch).get? i

/-- `BufWrite(ch, i, v)` (20_memory.md R71): the 32-bit pattern, unchanged. -/
def SampleBuffer.set (b : SampleBuffer) (ch : Channel) (i : Nat) (v : Word) : SampleBuffer :=
  match ch with
  | .left => { b with left := b.left.put i v }
  | .right => { b with right := b.right.put i v }

/-- The canonical form of the sample buffer: both channels sorted, every index below `MAXBLK_MAX`. -/
def SampleBuffer.wf (b : SampleBuffer) : Bool :=
  b.left.sorted && b.right.sorted && (b.left.all fun c => decide (c.1 < Config.maxblkMax)) &&
    (b.right.all fun c => decide (c.1 < Config.maxblkMax))

/-- The words of one channel of a delay memory. -/
def DelayLine.chan (d : DelayLine) : Channel → Words
  | .left => d.bufL
  | .right => d.bufR

/-- `d.buf[ch][i]` (43_delay_line.md). -/
def DelayLine.get (d : DelayLine) (ch : Channel) (i : Nat) : F32 := (d.chan ch).dlyGet i

/-- The canonical form of a delay memory. -/
def DelayLine.wf (d : DelayLine) : Bool := d.bufL.dlyWf && d.bufR.dlyWf

/-- Every word memory of the block is in its canonical form. -/
def Memory.wf (s : State) : Bool :=
  s.buf.wf && s.units.drift.d.wf && s.units.echo.d.wf && s.units.haze.combA.wf && s.units.haze.combB.wf &&
    s.units.phase.d.wf && s.units.cascade.d.wf && s.units.glisten.main.wf && s.units.glisten.shim.wf &&
    s.units.grind.d.wf && s.units.rust.combA.wf && s.units.rust.combB.wf

end Sys2Proof.Machine
end

