-- ==== Sys2Proof/Machine/Consts.lean ====
section
/-! DEFINITION. The decimal literals of the rules as the binary32 numbers nearest to them (00_scope.md R7), named by
their decimal digits. `Tests/Slice0.lean` rounds each decimal and compares. -/

namespace Sys2Proof.Machine

open Sys2Proof

/-- `TWO_PI` (00_scope.md R12). -/
def twoPi : F32 := 0x40C90FDB#32
/-- `MIX_SILENCE` = 0.001 (00_scope.md R12). -/
def mixSilence : F32 := 0x3A83126F#32

/-- 0 -/
def k0 : F32 := 0x00000000#32
/-- 1 -/
def k1 : F32 := 0x3F800000#32
/-- 2 -/
def k2 : F32 := 0x40000000#32
/-- 3 -/
def k3 : F32 := 0x40400000#32
/-- 4 -/
def k4 : F32 := 0x40800000#32
/-- 7 -/
def k7 : F32 := 0x40E00000#32
/-- 8 -/
def k8 : F32 := 0x41000000#32
/-- 10 -/
def k10 : F32 := 0x41200000#32
/-- 12 -/
def k12 : F32 := 0x41400000#32
/-- 15 -/
def k15 : F32 := 0x41700000#32
/-- 16 -/
def k16 : F32 := 0x41800000#32
/-- 18 -/
def k18 : F32 := 0x41900000#32
/-- 20 -/
def k20 : F32 := 0x41A00000#32
/-- 200 -/
def k200 : F32 := 0x43480000#32
/-- 300 -/
def k300 : F32 := 0x43960000#32
/-- 500 -/
def k500 : F32 := 0x43FA0000#32
/-- 800 -/
def k800 : F32 := 0x44480000#32
/-- 1200 -/
def k1200 : F32 := 0x44960000#32
/-- 2000 -/
def k2000 : F32 := 0x44FA0000#32
/-- 3000 -/
def k3000 : F32 := 0x453B8000#32
/-- 4000 -/
def k4000 : F32 := 0x457A0000#32
/-- -1 -/
def kn1 : F32 := 0xBF800000#32
/-- -2 -/
def kn2 : F32 := 0xC0000000#32
/-- -12 -/
def kn12 : F32 := 0xC1400000#32
/-- 0.5 -/
def k0_5 : F32 := 0x3F000000#32
/-- 0.49 -/
def k0_49 : F32 := 0x3EFAE148#32
/-- 0.7 -/
def k0_7 : F32 := 0x3F333333#32
/-- 0.9 -/
def k0_9 : F32 := 0x3F666666#32
/-- 1.1 -/
def k1_1 : F32 := 0x3F8CCCCD#32
/-- 0.8 -/
def k0_8 : F32 := 0x3F4CCCCD#32
/-- 1.2 -/
def k1_2 : F32 := 0x3F99999A#32
/-- 0.3 -/
def k0_3 : F32 := 0x3E99999A#32
/-- 0.05 -/
def k0_05 : F32 := 0x3D4CCCCD#32
/-- 0.35 -/
def k0_35 : F32 := 0x3EB33333#32
/-- 0.2 -/
def k0_2 : F32 := 0x3E4CCCCD#32
/-- 0.15 -/
def k0_15 : F32 := 0x3E19999A#32
/-- 0.6 -/
def k0_6 : F32 := 0x3F19999A#32
/-- 0.4 -/
def k0_4 : F32 := 0x3ECCCCCD#32
/-- 0.45 -/
def k0_45 : F32 := 0x3EE66666#32
/-- 0.25 -/
def k0_25 : F32 := 0x3E800000#32
/-- 0.015 -/
def k0_015 : F32 := 0x3C75C28F#32
/-- 0.012 -/
def k0_012 : F32 := 0x3C449BA6#32
/-- 0.008 -/
def k0_008 : F32 := 0x3C03126F#32
/-- 0.037 -/
def k0_037 : F32 := 0x3D178D50#32
/-- 0.053 -/
def k0_053 : F32 := 0x3D591687#32
/-- 0.125 -/
def k0_125 : F32 := 0x3E000000#32
/-- 0.375 -/
def k0_375 : F32 := 0x3EC00000#32
/-- 0.08 -/
def k0_08 : F32 := 0x3DA3D70A#32
/-- 0.04 -/
def k0_04 : F32 := 0x3D23D70A#32
/-- 0.023 -/
def k0_023 : F32 := 0x3CBC6A7F#32
/-- 0.047 -/
def k0_047 : F32 := 0x3D408312#32
/-- 0.027 -/
def k0_027 : F32 := 0x3CDD2F1B#32
/-- 0.001 -/
def k0_001 : F32 := 0x3A83126F#32

end Sys2Proof.Machine
end

