-- ==== Sys2Proof/Machine/Numerics.lean ====
section
/-! DEFINITION. The numerics configuration `NUM` (00_scope.md R8) and the OPEN parameters (R5). Each is an opaque
constant of Config brought into the properties or the range the spec states pointwise: a constant that has them already
is left as it is, so the model covers every admissible instance (logs 6, 7). Whether R7's flush applies to a result of
NUM is left open by the spec: no function of this file flushes its result, so a subnormal and a zero are both admitted
where R8 admits them (log 32). -/

namespace Sys2Proof.Machine

open Sys2Proof

/-- `r` if `lo <= r <= hi`, else `lo`. -/
def within (lo hi r : F32) : F32 := if fLe lo r && fLe r hi then r else lo

/-- `+inf`. -/
def plusInf : F32 := 0x7F800000#32

/-- 2^n for an integer `n` in [-126, 127]. -/
def pow2 (n : Int) : F32 := BitVec.ofNat 32 ((n + 127).toNat * 2 ^ 23)

/-- `tanh_f` (R8): a zero gives itself; odd; between 0 and 1 on the positive side. R8 compares numbers, so a zero result for
an operand that is no zero may have either sign on either side: the constant's own is kept (log 6). A subnormal result is
kept (log 32). -/
def tanhF (x : F32) : F32 :=
  let y := daz x
  if isNaN y then Config.tanhRaw y
  else if fUnits y = 0 then y
  else
    let r := within 0 k1 (Config.tanhRaw (dAbs y))
    if !fSign y then r
    else if fEq r 0 && fEq (Config.tanhRaw y) 0 then Config.tanhRaw y
    else fNeg r

/-- `sin_f` (R8): `sin_f(+0) = +0`; within [-1, 1]. A subnormal result is kept (log 32). -/
def sinF (x : F32) : F32 :=
  let y := daz x
  if y = 0 then 0 else if isNaN y then Config.sinRaw y else within kn1 k1 (Config.sinRaw y)

/-- `cos_f` (R8): `cos_f(+0) = 1`; within [-1, 1]. A subnormal result is kept (log 32). -/
def cosF (x : F32) : F32 :=
  let y := daz x
  if y = 0 then k1 else if isNaN y then Config.cosRaw y else within kn1 k1 (Config.cosRaw y)

/-- `exp_f` (R8): 1 at zero; in [0, 1) below zero; not below 1 above zero. A subnormal result is
kept (log 32). -/
def expF (x : F32) : F32 :=
  let y := daz x
  if isNaN y then Config.expRaw y
  else if fEq y 0 then k1
  else if fLt y 0 then within 0 0x3F7FFFFF#32 (Config.expRaw y)
  else within k1 plusInf (Config.expRaw y)

/-- `exp2_f` (R8): exact at the integers in [-126, 127]; between its neighbours there, because it does not decrease;
positive elsewhere. A subnormal result is kept (log 32). -/
def exp2F (x : F32) : F32 :=
  let y := daz x
  if isNaN y then Config.exp2Raw y
  else if isFin y && decide (-126 ≤ floorInt y) && decide (floorInt y ≤ 127) then
    if fEq y (fOfInt (floorInt y)) then pow2 (floorInt y)
    else within (pow2 (floorInt y)) (if floorInt y = 127 then plusInf else pow2 (floorInt y + 1)) (Config.exp2Raw y)
  else if fLt y 0 then within 1 (pow2 (-126)) (Config.exp2Raw y)
  else within (pow2 127) plusInf (Config.exp2Raw y)

/-- `pow10_f` (R8): 1 at zero; positive; not above 1 below zero and not below 1 above zero, because it does not
decrease. R8 does not say that it is finite; a gain that is not ends a PROCESS by R10. A subnormal result is kept
(log 32). -/
def pow10F (x : F32) : F32 :=
  let y := daz x
  if isNaN y then Config.pow10Raw y
  else if fEq y 0 then k1
  else if fLt y 0 then within 1 k1 (Config.pow10Raw y)
  else within k1 plusInf (Config.pow10Raw y)

/-- A ramp time: `>= 0` (R5) and so short that its length in samples is below 2^24 at every rate (R11; log 7). -/
def rampTime (raw : F32) : F32 := if fLe 0 raw && fLt (fMul raw Config.fsMax) 0x4B800000#32 then raw else 0

/-- `T_RAMP_PRE` (R5). -/
def tRampPre : F32 := rampTime Config.tRampPreRaw

/-- `T_RAMP_MIX` (R5). -/
def tRampMix : F32 := rampTime Config.tRampMixRaw

/-- `METER_DECAY` in [0, 1] (R5). -/
def meterDecay : F32 := within 0 k1 Config.meterDecayRaw

/-- `GLISTEN_FB` in [0, 1) (R5). -/
def glistenFb : F32 := within 0 0x3F7FFFFF#32 Config.glistenFbRaw

/-- `RUST_FB` in [0, 1) (R5). -/
def rustFb : F32 := within 0 0x3F7FFFFF#32 Config.rustFbRaw

end Sys2Proof.Machine
end

