-- ==== Sys2Proof/Machine/Ops.lean ====
section
/-! DEFINITION. The named operations over the block's state: checked arithmetic, access to each register group by its
instance, the response of a command and the one shared refusal `raise` (60_exceptions.md R305), and the ends of an
operation. -/

namespace Sys2Proof.Machine

open Sys2Proof

/-- The outcome of one instruction. -/
abbrev Out := Host.Outcome State Fault Refusal

/-! ## Checked arithmetic -/

/-- What happened during a computation that the spec's rules do not cover; each mark stays once set. -/
structure Marks where
  /-- a result, or a sample read, was not finite (00_scope.md R10) -/
  nonFinite : Bool := false
  /-- a buffer word that nothing has written was read (93_implementation_defined.md U4) -/
  unwritten : Bool := false
  /-- a buffer index of 8192 or more was used (20_memory.md R71) -/
  range : Bool := false
  /-- a delay memory without a size was used (00_scope.md R11) -/
  unsized : Bool := false
  deriving DecidableEq, Repr

/-- A computation of the datapath: total, with the marks it leaves. -/
abbrev Calc := StateM Marks

/-- A result wire: marked when it is not finite (R10). -/
def note (r : F32) : Calc F32 := fun m => (r, { m with nonFinite := m.nonFinite || !isFin r })

/-- The written operation `a + b`. -/
def cAdd (a b : F32) : Calc F32 := note (fAdd a b)
/-- The written operation `a - b`. -/
def cSub (a b : F32) : Calc F32 := note (fSub a b)
/-- The written operation `a * b`. -/
def cMul (a b : F32) : Calc F32 := note (fMul a b)
/-- The written operation `a / b`. -/
def cDiv (a b : F32) : Calc F32 := note (fDiv a b)
/-- The written operation `sqrt a`. -/
def cSqrt (a : F32) : Calc F32 := note (fSqrt a)

/-- A delay memory of the given capacity is used. -/
def needSize (cap : Nat) : Calc Unit := fun m => ((), { m with unsized := m.unsized || cap == 0 })

/-- The value of a computation whose marks do not matter: PREPARE, RESET and an operation called alone compute by
IEEE 754 whatever the values are (60_exceptions.md R300; log 14). -/
def valueOf {α : Type} (c : Calc α) : α := (c.run {}).1

/-- The marks a computation leaves. -/
def marksOf {α : Type} (c : Calc α) : Marks := (c.run {}).2

/-- `BufRead(ch, i)` by a stage of PROCESS (20_memory.md R71, 00_scope.md R10, U4). -/
def bufRead (b : SampleBuffer) (ch : Channel) (i : Nat) : Calc F32 := fun m =>
  if Config.maxblkMax ≤ i then (0, { m with range := true })
  else
    match b.get? ch i with
    | none => (0, { m with unwritten := true })
    | some w => (w, { m with nonFinite := m.nonFinite || !isFin w })

/-- The end of an operation called by name: it stops where it used a word that does not exist or holds no value. Its
arithmetic is total (60_exceptions.md R300; log 14). -/
def finishOp (c : Calc State) : Out :=
  match c.run {} with
  | (s, m) =>
    if m.range then .fault .bufferRange
    else if m.unsized then .fault .delayUnsized
    else if m.unwritten then .refused .unwrittenWord
    else .next s

/-- The end of PROCESS: besides, a block with a sample or a result that is not finite is outside the rules and is
refused (00_scope.md R10, U3). -/
def finishBlock (c : Calc State) : Out :=
  match c.run {} with
  | (s, m) =>
    if m.range then .fault .bufferRange
    else if m.unsized then .fault .delayUnsized
    else if m.unwritten then .refused .unwrittenWord
    else if m.nonFinite then .refused .nonFinite
    else .next s

/-! ## Register groups by instance -/

/-- The smoother of an instance (10_state.md R36). -/
def State.smoother (s : State) : SmootherId → Smoother
  | .drive => s.pre.drive
  | .tone => s.pre.tone
  | .out => s.pre.out
  | .mix .ember => s.units.ember.mix
  | .mix .velvet => s.units.velvet.mix
  | .mix .drift => s.units.drift.mix
  | .mix .echo => s.units.echo.mix
  | .mix .haze => s.units.haze.mix
  | .mix .fracture => s.units.fracture.mix
  | .mix .prism => s.units.prism.mix
  | .mix .phase => s.units.phase.mix
  | .mix .cascade => s.units.cascade.mix
  | .mix .glisten => s.units.glisten.mix
  | .mix .scorch => s.units.scorch.mix
  | .mix .snarl => s.units.snarl.mix
  | .mix .shred => s.units.shred.mix
  | .mix .grind => s.units.grind.mix
  | .mix .rust => s.units.rust.mix

/-- Write it. -/
def State.setSmoother (s : State) (i : SmootherId) (x : Smoother) : State :=
  match i with
  | .drive => { s with pre := { s.pre with drive := x } }
  | .tone => { s with pre := { s.pre with tone := x } }
  | .out => { s with pre := { s.pre with out := x } }
  | .mix .ember => { s with units := { s.units with ember := { s.units.ember with mix := x } } }
  | .mix .velvet => { s with units := { s.units with velvet := { s.units.velvet with mix := x } } }
  | .mix .drift => { s with units := { s.units with drift := { s.units.drift with mix := x } } }
  | .mix .echo => { s with units := { s.units with echo := { s.units.echo with mix := x } } }
  | .mix .haze => { s with units := { s.units with haze := { s.units.haze with mix := x } } }
  | .mix .fracture => { s with units := { s.units with fracture := { s.units.fracture with mix := x } } }
  | .mix .prism => { s with units := { s.units with prism := { s.units.prism with mix := x } } }
  | .mix .phase => { s with units := { s.units with phase := { s.units.phase with mix := x } } }
  | .mix .cascade => { s with units := { s.units with cascade := { s.units.cascade with mix := x } } }
  | .mix .glisten => { s with units := { s.units with glisten := { s.units.glisten with mix := x } } }
  | .mix .scorch => { s with units := { s.units with scorch := { s.units.scorch with mix := x } } }
  | .mix .snarl => { s with units := { s.units with snarl := { s.units.snarl with mix := x } } }
  | .mix .shred => { s with units := { s.units with shred := { s.units.shred with mix := x } } }
  | .mix .grind => { s with units := { s.units with grind := { s.units.grind with mix := x } } }
  | .mix .rust => { s with units := { s.units with rust := { s.units.rust with mix := x } } }

/-- The filter of an instance (10_state.md R37). -/
def State.filter (s : State) : FilterId → Biquad
  | .shelfL => s.pre.shelfL
  | .shelfR => s.pre.shelfR
  | .dcL => s.pre.dcL
  | .dcR => s.pre.dcR
  | .velvetL => s.units.velvet.fL
  | .velvetR => s.units.velvet.fR
  | .echoL => s.units.echo.fL
  | .echoR => s.units.echo.fR
  | .hazeL => s.units.haze.fL
  | .hazeR => s.units.haze.fR
  | .glistenL => s.units.glisten.fL
  | .glistenR => s.units.glisten.fR
  | .snarlL => s.units.snarl.fL
  | .snarlR => s.units.snarl.fR

/-- Write it. -/
def State.setFilter (s : State) (i : FilterId) (x : Biquad) : State :=
  match i with
  | .shelfL => { s with pre := { s.pre with shelfL := x } }
  | .shelfR => { s with pre := { s.pre with shelfR := x } }
  | .dcL => { s with pre := { s.pre with dcL := x } }
  | .dcR => { s with pre := { s.pre with dcR := x } }
  | .velvetL => { s with units := { s.units with velvet := { s.units.velvet with fL := x } } }
  | .velvetR => { s with units := { s.units with velvet := { s.units.velvet with fR := x } } }
  | .echoL => { s with units := { s.units with echo := { s.units.echo with fL := x } } }
  | .echoR => { s with units := { s.units with echo := { s.units.echo with fR := x } } }
  | .hazeL => { s with units := { s.units with haze := { s.units.haze with fL := x } } }
  | .hazeR => { s with units := { s.units with haze := { s.units.haze with fR := x } } }
  | .glistenL => { s with units := { s.units with glisten := { s.units.glisten with fL := x } } }
  | .glistenR => { s with units := { s.units with glisten := { s.units.glisten with fR := x } } }
  | .snarlL => { s with units := { s.units with snarl := { s.units.snarl with fL := x } } }
  | .snarlR => { s with units := { s.units with snarl := { s.units.snarl with fR := x } } }

/-- The delay memory of an instance (10_state.md R38). -/
def State.delay (s : State) : DelayId → DelayLine
  | .drift => s.units.drift.d
  | .echo => s.units.echo.d
  | .hazeA => s.units.haze.combA
  | .hazeB => s.units.haze.combB
  | .phase => s.units.phase.d
  | .cascade => s.units.cascade.d
  | .glistenM => s.units.glisten.main
  | .glistenS => s.units.glisten.shim
  | .grind => s.units.grind.d
  | .rustA => s.units.rust.combA
  | .rustB => s.units.rust.combB

/-- Write it. -/
def State.setDelay (s : State) (i : DelayId) (x : DelayLine) : State :=
  match i with
  | .drift => { s with units := { s.units with drift := { s.units.drift with d := x } } }
  | .echo => { s with units := { s.units with echo := { s.units.echo with d := x } } }
  | .hazeA => { s with units := { s.units with haze := { s.units.haze with combA := x } } }
  | .hazeB => { s with units := { s.units with haze := { s.units.haze with combB := x } } }
  | .phase => { s with units := { s.units with phase := { s.units.phase with d := x } } }
  | .cascade => { s with units := { s.units with cascade := { s.units.cascade with d := x } } }
  | .glistenM => { s with units := { s.units with glisten := { s.units.glisten with main := x } } }
  | .glistenS => { s with units := { s.units with glisten := { s.units.glisten with shim := x } } }
  | .grind => { s with units := { s.units with grind := { s.units.grind with d := x } } }
  | .rustA => { s with units := { s.units with rust := { s.units.rust with combA := x } } }
  | .rustB => { s with units := { s.units with rust := { s.units.rust with combB := x } } }

/-- A level meter (10_state.md R41). -/
def State.meter (s : State) : MeterId → F32
  | .inL => s.meters.inL
  | .inR => s.meters.inR
  | .outL => s.meters.outL
  | .outR => s.meters.outR

/-- Write it. -/
def State.setMeter (s : State) (i : MeterId) (x : F32) : State :=
  match i with
  | .inL => { s with meters := { s.meters with inL := x } }
  | .inR => { s with meters := { s.meters with inR := x } }
  | .outL => { s with meters := { s.meters with outL := x } }
  | .outR => { s with meters := { s.meters with outR := x } }

/-- A configuration register (10_state.md R31). -/
def State.cfgReg (s : State) : CfgId → Word
  | .sampleRate => s.cfg.sampleRate
  | .maxBlock => s.cfg.maxBlock
  | .numCh => s.cfg.numCh

/-- Write it. -/
def State.setCfg (s : State) (i : CfgId) (x : Word) : State :=
  match i with
  | .sampleRate => { s with cfg := { s.cfg with sampleRate := x } }
  | .maxBlock => { s with cfg := { s.cfg with maxBlock := x } }
  | .numCh => { s with cfg := { s.cfg with numCh := x } }

/-- A parameter holder (10_state.md R33). -/
def Holders.get (h : Holders) : HolderId → Word
  | .drive => h.drive
  | .tone => h.tone
  | .output => h.output
  | .bypass => h.bypass
  | .preampType => h.preampType
  | .mix .ember => h.cathEmber
  | .mix .velvet => h.cathVelvet
  | .mix .drift => h.cathDrift
  | .mix .echo => h.cathEcho
  | .mix .haze => h.cathHaze
  | .mix .fracture => h.filFracture
  | .mix .prism => h.filPrism
  | .mix .phase => h.filPhase
  | .mix .cascade => h.filCascade
  | .mix .glisten => h.filGlisten
  | .mix .scorch => h.steelScorch
  | .mix .snarl => h.steelSnarl
  | .mix .shred => h.steelShred
  | .mix .grind => h.steelGrind
  | .mix .rust => h.steelRust

/-- A parameter holder of the state. -/
def State.holder (s : State) (i : HolderId) : Word := s.holders.get i

/-- Write it. -/
def State.setHolder (s : State) (i : HolderId) (x : Word) : State :=
  match i with
  | .drive => { s with holders := { s.holders with drive := x } }
  | .tone => { s with holders := { s.holders with tone := x } }
  | .output => { s with holders := { s.holders with output := x } }
  | .bypass => { s with holders := { s.holders with bypass := x } }
  | .preampType => { s with holders := { s.holders with preampType := x } }
  | .mix .ember => { s with holders := { s.holders with cathEmber := x } }
  | .mix .velvet => { s with holders := { s.holders with cathVelvet := x } }
  | .mix .drift => { s with holders := { s.holders with cathDrift := x } }
  | .mix .echo => { s with holders := { s.holders with cathEcho := x } }
  | .mix .haze => { s with holders := { s.holders with cathHaze := x } }
  | .mix .fracture => { s with holders := { s.holders with filFracture := x } }
  | .mix .prism => { s with holders := { s.holders with filPrism := x } }
  | .mix .phase => { s with holders := { s.holders with filPhase := x } }
  | .mix .cascade => { s with holders := { s.holders with filCascade := x } }
  | .mix .glisten => { s with holders := { s.holders with filGlisten := x } }
  | .mix .scorch => { s with holders := { s.holders with steelScorch := x } }
  | .mix .snarl => { s with holders := { s.holders with steelSnarl := x } }
  | .mix .shred => { s with holders := { s.holders with steelShred := x } }
  | .mix .grind => { s with holders := { s.holders with steelGrind := x } }
  | .mix .rust => { s with holders := { s.holders with steelRust := x } }

/-- A command port (30_encoding.md R100). -/
def State.port (s : State) : Port → PortIO
  | .audio => s.audio
  | .control => s.control
  | .monitor => s.monitor

/-- Write it. -/
def State.setPort (s : State) (i : Port) (x : PortIO) : State :=
  match i with
  | .audio => { s with audio := x }
  | .control => { s with control := x }
  | .monitor => { s with monitor := x }

/-! ## Responses and refusals -/

/-- The code of a refusal (60_exceptions.md R301). -/
def Err.code : Err → BitVec 8
  | .illegal => 1
  | .sel => 2
  | .notPrep => 3
  | .len => 4
  | .index => 5
  | .port => 6

/-- An RSP64 word: code, 24 zero bits, value (30_encoding.md R101). -/
def rspWord (code : BitVec 8) (value : Word) : RspWord := code ++ (0#24 : BitVec 24) ++ value

/-- Send a response on the port that issued the command (30_encoding.md R101). -/
def State.send (s : State) (r : RspWord) : State :=
  let p := s.port s.granted
  s.setPort s.granted { p with responses := p.responses ++ [r] }

/-- `respond(OK, value)` (40_host_commands.md). -/
def State.respond (s : State) (value : Word) : State := s.send (rspWord 0 value)

/-- The sticky STATUS bit of a refusal, bit 7 + code (60_exceptions.md R301). -/
def State.setSticky (s : State) (e : Err) : State :=
  match e with
  | .illegal => { s with status := { s.status with eIllegal := true } }
  | .sel => { s with status := { s.status with eSel := true } }
  | .notPrep => { s with status := { s.status with eNotPrep := true } }
  | .len => { s with status := { s.status with eLen := true } }
  | .index => { s with status := { s.status with eIndex := true } }
  | .port => { s with status := { s.status with ePort := true } }

/-- `raise E`, the whole of trap entry for this hardware (60_exceptions.md R305): the sticky bit is set, the response
is the code with value 0, nothing else changes. There is nothing to return from (R306). -/
def raise (e : Err) (s : State) : State := (s.setSticky e).send (rspWord e.code 0)

/-- The ports that may issue an opcode (30_encoding.md R103, 60_exceptions.md R312). -/
def mayIssue : Opcode → Port → Bool
  | .nop, _ => true
  | .getstatus, _ => true
  | .setparam, .control => true
  | .setparam, _ => false
  | .getparam, .monitor => false
  | .getparam, _ => true
  | .getmeter, .control => false
  | .getmeter, _ => true
  | _, .audio => true
  | _, _ => false

/-- Check 2 of 30_encoding.md R107: perform the command only if its port may issue the opcode. -/
def onPort (op : Opcode) (s : State) (perform : Out) : Out :=
  if mayIssue op s.granted then perform else .next (raise .port s)

/-- Leave the results of an operation called by name on the result wires (log 5). -/
def State.setWires (s : State) (r : List F32) : State := { s with wires := r }

/-! ## The host side of a port -/

/-- The host issues a command word on a port (30_encoding.md R100): it waits behind the ones issued before it (R78). -/
def State.issue (s : State) (p : Port) (w : CmdWord) : State :=
  s.setPort p { s.port p with commands := (s.port p).commands ++ [w] }

end Sys2Proof.Machine
end

