-- ==== Sys2Proof/Machine/Delay.lean ====
section
/-! DEFINITION. The delay line (43_delay_line.md): sizing, clearing, writing, the integer and the fractional tap, the
advance, and the meanings of the DL rows. -/

namespace Sys2Proof.Machine

open Sys2Proof

/-- The capacity for a longest delay and a guard (R190). -/
def delayCap (tmax : F32) (guard : Nat) (sr : F32) : Calc Nat := do
  let p ← cMul tmax sr
  pure (ceilNat p + guard)

/-- DL.SIZE (R190). -/
def DelayLine.size (d : DelayLine) (tmax : F32) (guard : Nat) (sr : F32) : Calc DelayLine := do
  let c ← delayCap tmax guard sr
  pure { d with cap := c }

/-- DL.CLEAR (R191). -/
def DelayLine.clear (d : DelayLine) : DelayLine :=
  { d with bufL := d.bufL.dlyClear d.cap, bufR := d.bufR.dlyClear d.cap, writePos := 0 }

/-- DL.WRITE (R192): the position does not move. -/
def DelayLine.write (d : DelayLine) (vL vR : F32) : DelayLine :=
  { d with bufL := d.bufL.dlySet d.writePos vL, bufR := d.bufR.dlySet d.writePos vR }

/-- DL.ADVANCE (R195). -/
def DelayLine.advance (d : DelayLine) : DelayLine := { d with writePos := (d.writePos + 1) % d.cap }

/-- The word index of the integer tap: `(writePos - D) mod cap` (R193). -/
def DelayLine.tapIndex (d : DelayLine) (lag : Nat) : Nat := (((d.writePos : Int) - lag) % d.cap).toNat

/-- DL.READI (R193). -/
def DelayLine.readI (d : DelayLine) (lag : Nat) : F32 × F32 :=
  (d.get .left (d.tapIndex lag), d.get .right (d.tapIndex lag))

/-- The read position of the fractional tap, in binary32 (R194). -/
def DelayLine.readPos (d : DelayLine) (t : F32) : Calc F32 := do
  let rp ← cSub (fOfNat d.writePos) t
  if dLt rp k0 then cAdd rp (fOfNat d.cap) else pure rp

/-- DL.READF (R194): 2-point linear interpolation. -/
def DelayLine.readF (d : DelayLine) (ch : Channel) (t : F32) : Calc F32 := do
  let rp ← d.readPos t
  let i := floorInt rp
  let frac ← cSub rp (fOfInt i)
  let i0 := (i % d.cap).toNat
  let i1 := (i0 + 1) % d.cap
  cAdd (← cMul (d.get ch i0) (← cSub k1 frac)) (← cMul (d.get ch i1) frac)

/-- A unit's integer tap of a memory that must have a size. -/
def cReadI (d : DelayLine) (lag : Nat) : Calc (F32 × F32) := do
  needSize d.cap
  pure (d.readI lag)

/-- A unit's fractional tap of a memory that must have a size. -/
def cReadF (d : DelayLine) (ch : Channel) (t : F32) : Calc F32 := do
  needSize d.cap
  d.readF ch t

/-- A unit's write and advance, in this order, once per processed sample (R196). -/
def cPush (d : DelayLine) (vL vR : F32) : Calc DelayLine := do
  needSize d.cap
  pure (d.write vL vR).advance

/-- Meaning of DL.SIZE (R190). -/
def execDlSize (d : DelayId) (tmax : F32) (guard : Nat) (sr : F32) (s : State) : Out :=
  .next (s.setDelay d (valueOf ((s.delay d).size tmax guard sr)))

/-- Meaning of DL.CLEAR (R191). -/
def execDlClear (d : DelayId) (s : State) : Out := .next (s.setDelay d (s.delay d).clear)

/-- Meaning of DL.WRITE (R192). -/
def execDlWrite (d : DelayId) (vL vR : F32) (s : State) : Out := finishOp do
  needSize (s.delay d).cap
  pure (s.setDelay d ((s.delay d).write vL vR))

/-- Meaning of DL.READI (R193): the pair is left on the wires. -/
def execDlReadi (d : DelayId) (lag : Nat) (s : State) : Out := finishOp do
  let r ← cReadI (s.delay d) lag
  pure (s.setWires [r.1, r.2])

/-- Meaning of DL.READF (R194). -/
def execDlReadf (d : DelayId) (ch : Channel) (t : F32) (s : State) : Out := finishOp do
  let y ← cReadF (s.delay d) ch t
  pure (s.setWires [y])

/-- Meaning of DL.ADVANCE (R195). -/
def execDlAdvance (d : DelayId) (s : State) : Out := finishOp do
  needSize (s.delay d).cap
  pure (s.setDelay d (s.delay d).advance)

end Sys2Proof.Machine
end

