-- ==== Sys2Proof/Machine/Filter.lean ====
section
/-! DEFINITION. The IIR biquad filter (42_biquad.md): recurrence, reset, coefficient computation of the four kinds, and
the meanings of the BQ rows. -/

namespace Sys2Proof.Machine

open Sys2Proof

/-- BQ.PROCESS (R170): the output and the filter after it. Direct Form I in the written order (C1). -/
def Biquad.process (f : Biquad) (x : F32) : Calc (F32 × Biquad) := do
  let t0 ← cAdd (← cMul f.b0 x) (← cMul f.b1 f.x1)
  let t1 ← cAdd t0 (← cMul f.b2 f.x2)
  let t2 ← cSub t1 (← cMul f.a1 f.y1)
  let y ← cSub t2 (← cMul f.a2 f.y2)
  pure (y, { f with x2 := f.x1, x1 := x, y2 := f.y1, y1 := y })

/-- BQ.RESET (R171): the history zeroed, the coefficients kept. -/
def Biquad.reset (f : Biquad) : Biquad := { f with x1 := 0, x2 := 0, y1 := 0, y2 := 0 }

/-- The unnormalised coefficients of a kind (R172). -/
structure RawCoefs where
  b0 : F32
  b1 : F32
  b2 : F32
  a0 : F32
  a1 : F32
  a2 : F32
  deriving DecidableEq, Repr

/-- The low-pass formulas (R174). -/
def rawLp (cs sn q : F32) : Calc RawCoefs := do
  let alpha ← cDiv sn (← cMul k2 q)
  let t ← cSub k1 cs
  let b0 ← cMul t k0_5
  pure { b0 := b0, b1 := t, b2 := b0, a0 := ← cAdd k1 alpha, a1 := ← cMul kn2 cs, a2 := ← cSub k1 alpha }

/-- The high-pass formulas (R175). -/
def rawHp (cs sn q : F32) : Calc RawCoefs := do
  let alpha ← cDiv sn (← cMul k2 q)
  let t ← cAdd k1 cs
  let b0 ← cMul t k0_5
  pure { b0 := b0, b1 := fNeg t, b2 := b0, a0 := ← cAdd k1 alpha, a1 := ← cMul kn2 cs, a2 := ← cSub k1 alpha }

/-- The band-pass formulas, constant 0 dB peak gain (R176). -/
def rawBp (cs sn q : F32) : Calc RawCoefs := do
  let alpha ← cDiv sn (← cMul k2 q)
  pure { b0 := alpha, b1 := 0, b2 := fNeg alpha, a0 := ← cAdd k1 alpha, a1 := ← cMul kn2 cs, a2 := ← cSub k1 alpha }

/-- The low-shelf formulas for a linear gain `g` (R177). -/
def rawLs (cs sn q g : F32) : Calc RawCoefs := do
  let a ← cSqrt g
  let ap1 ← cAdd a k1
  let am1 ← cSub a k1
  let beta ← cDiv (← cMul sn (← cSqrt a)) q
  let amc ← cMul am1 cs
  let apc ← cMul ap1 cs
  let b0 ← cMul a (← cAdd (← cSub ap1 amc) beta)
  let b1 ← cMul (← cMul k2 a) (← cSub am1 apc)
  let b2 ← cMul a (← cSub (← cSub ap1 amc) beta)
  let a0 ← cAdd (← cAdd ap1 amc) beta
  let a1 ← cMul kn2 (← cAdd am1 apc)
  let a2 ← cSub (← cAdd ap1 amc) beta
  pure { b0 := b0, b1 := b1, b2 := b2, a0 := a0, a1 := a1, a2 := a2 }

/-- The angle `w0` of a frequency, limited to [1, 0.49 sr] first (R172, R179). -/
def angle (fc sr : F32) : Calc F32 := do
  let hi ← cMul k0_49 sr
  cDiv (← cMul twoPi (dClamp fc k1 hi)) sr

/-- The five divisions of R172; the history is not touched. -/
def Biquad.normalise (f : Biquad) (r : RawCoefs) : Calc Biquad := do
  let b0 ← cDiv r.b0 r.a0
  let b1 ← cDiv r.b1 r.a0
  let b2 ← cDiv r.b2 r.a0
  let a1 ← cDiv r.a1 r.a0
  let a2 ← cDiv r.a2 r.a0
  pure { f with b0 := b0, b1 := b1, b2 := b2, a1 := a1, a2 := a2 }

/-- BQ.SETC (R172). Only the low-shelf reads the gain `g`. -/
def Biquad.setc (f : Biquad) (k : FilterKind) (fc q sr g : F32) : Calc Biquad := do
  let w0 ← angle fc sr
  let cs ← note (cosF w0)
  let sn ← note (sinF w0)
  let raw ← match k with
    | .lp => rawLp cs sn q
    | .hp => rawHp cs sn q
    | .bp => rawBp cs sn q
    | .ls => rawLs cs sn q g
  f.normalise raw

/-- Meaning of BQ.SETC.LP (R174). -/
def execBqSetcLp (f : FilterId) (fc q sr : F32) (s : State) : Out :=
  .next (s.setFilter f (valueOf ((s.filter f).setc .lp fc q sr k0)))

/-- Meaning of BQ.SETC.HP (R175). -/
def execBqSetcHp (f : FilterId) (fc q sr : F32) (s : State) : Out :=
  .next (s.setFilter f (valueOf ((s.filter f).setc .hp fc q sr k0)))

/-- Meaning of BQ.SETC.BP (R176). -/
def execBqSetcBp (f : FilterId) (fc q sr : F32) (s : State) : Out :=
  .next (s.setFilter f (valueOf ((s.filter f).setc .bp fc q sr k0)))

/-- Meaning of BQ.SETC.LS (R177). -/
def execBqSetcLs (f : FilterId) (fc q sr g : F32) (s : State) : Out :=
  .next (s.setFilter f (valueOf ((s.filter f).setc .ls fc q sr g)))

/-- Meaning of BQ.PROCESS (R170). -/
def execBqProcess (f : FilterId) (x : F32) (s : State) : Out :=
  let r := valueOf ((s.filter f).process x)
  .next ((s.setFilter f r.2).setWires [r.1])

/-- Meaning of BQ.RESET (R171). -/
def execBqReset (f : FilterId) (s : State) : Out := .next (s.setFilter f (s.filter f).reset)

/-- Meaning of BQ.SETC (R172). -/
def execBqSetc (f : FilterId) (k : FilterKind) (fc q sr g : F32) (s : State) : Out :=
  .next (s.setFilter f (valueOf ((s.filter f).setc k fc q sr g)))

end Sys2Proof.Machine
end

