-- ==== Sys2Proof/Machine/Primitives.lean ====
section
/-! DEFINITION. Waveshapers, quantiser, oscillators, envelope follower, gate, meter update, gain map and crossfade
(44_primitives.md), and the meanings of their rows: the result is left on the wires (log 5). -/

namespace Sys2Proof.Machine

open Sys2Proof

/-- HARDCLIP (R205). -/
def hardclip (x : F32) : F32 := if dLt x kn1 then kn1 else if dLt k1 x then k1 else daz x

/-- XFMR_SAT (R206). -/
def xfmrSat (x : F32) : Calc F32 :=
  let a := dAbs x
  if dLt k0_7 a then do
    let v ← cAdd k0_7 (← cMul (← cSub a k0_7) k0_5)
    pure (dCopysign (dMin v k1) x)
  else pure (daz x)

/-- SOFTCLIP (R207). -/
def softclip (x : F32) : Calc F32 := do
  if dLt k0 x then note (tanhF (← cMul x k0_9)) else note (tanhF (← cMul x k1_1))

/-- EMBER_SHAPE (R208). -/
def emberShape (x : F32) : Calc F32 := do
  if dLt k0 x then cMul (← note (tanhF (← cMul x k0_8))) k1_1 else note (tanhF (← cMul x k1_2))

/-- QUANT (R209). -/
def quant (x nb : F32) : Calc F32 := do
  let lv ← note (exp2F (← cSub nb k1))
  cDiv (← note (roundHaz (← cMul x lv))) lv

/-- LFO.ADVANCE (R210). -/
def lfoAdvance (p rate sr : F32) : Calc F32 := do
  let q ← cAdd p (← cDiv rate sr)
  if dGe q k1 then cSub q k1 else pure q

/-- LFO.SINE (R211). -/
def lfoSine (p : F32) : Calc F32 := do note (sinF (← cMul twoPi p))

/-- LFO.TRI (R212). -/
def lfoTri (p : F32) : Calc F32 := do
  if dLt p k0_5 then cMul k2 p else cSub k2 (← cMul k2 p)

/-- ENV.COEF (R213). -/
def envCoef (t sr : F32) : Calc F32 := do note (expF (← cDiv kn1 (← cMul t sr)))

/-- ENV.STEP (R213). -/
def envStep (env lvl ca cr : F32) : Calc F32 := do
  let c := if dLt env lvl then ca else cr
  cAdd lvl (← cMul c (← cSub env lvl))

/-- GATE (R214). -/
def gate (env : F32) : Calc F32 := if dGe env k0_05 then pure k1 else cDiv env k0_05

/-- The value METER.UPDATE gives a meter register (R215). -/
def meterNext (old pk : F32) : Calc F32 := do
  let d ← cMul old meterDecay
  pure (dMax pk d)

/-- DB2LIN (R216). -/
def db2lin (o : F32) : Calc F32 := do
  let dB ← cAdd kn12 (← cMul o k18)
  note (pow10F (← cDiv dB k20))

/-- RECTIFY (R217). -/
def rectify (x : F32) : F32 := dAbs x

/-- XFADE (R218): the last step of every unit (45_units_cathode.md R240). -/
def xfade (dry wet m : F32) : Calc F32 := do cAdd dry (← cMul (← cSub wet dry) m)

/-- Meaning of HARDCLIP (R205). -/
def execHardclip (x : F32) (s : State) : Out := .next (s.setWires [hardclip x])
/-- Meaning of XFMR_SAT (R206). -/
def execXfmrSat (x : F32) (s : State) : Out := .next (s.setWires [valueOf (xfmrSat x)])
/-- Meaning of SOFTCLIP (R207). -/
def execSoftclip (x : F32) (s : State) : Out := .next (s.setWires [valueOf (softclip x)])
/-- Meaning of EMBER_SHAPE (R208). -/
def execEmberShape (x : F32) (s : State) : Out := .next (s.setWires [valueOf (emberShape x)])
/-- Meaning of QUANT (R209). -/
def execQuant (x nb : F32) (s : State) : Out := .next (s.setWires [valueOf (quant x nb)])
/-- Meaning of LFO.ADVANCE (R210). -/
def execLfoAdvance (p rate sr : F32) (s : State) : Out := .next (s.setWires [valueOf (lfoAdvance p rate sr)])
/-- Meaning of LFO.SINE (R211). -/
def execLfoSine (p : F32) (s : State) : Out := .next (s.setWires [valueOf (lfoSine p)])
/-- Meaning of LFO.TRI (R212). -/
def execLfoTri (p : F32) (s : State) : Out := .next (s.setWires [valueOf (lfoTri p)])
/-- Meaning of ENV.COEF (R213). -/
def execEnvCoef (t sr : F32) (s : State) : Out := .next (s.setWires [valueOf (envCoef t sr)])
/-- Meaning of ENV.STEP (R213). -/
def execEnvStep (env lvl ca cr : F32) (s : State) : Out := .next (s.setWires [valueOf (envStep env lvl ca cr)])
/-- Meaning of GATE (R214). -/
def execGate (env : F32) (s : State) : Out := .next (s.setWires [valueOf (gate env)])
/-- Meaning of METER.UPDATE (R215). -/
def execMeterUpdate (k : MeterId) (pk : F32) (s : State) : Out :=
  .next (s.setMeter k (valueOf (meterNext (s.meter k) pk)))
/-- Meaning of DB2LIN (R216). -/
def execDb2lin (o : F32) (s : State) : Out := .next (s.setWires [valueOf (db2lin o)])
/-- Meaning of RECTIFY (R217). -/
def execRectify (x : F32) (s : State) : Out := .next (s.setWires [rectify x])
/-- Meaning of XFADE (R218). -/
def execXfade (dry wet m : F32) (s : State) : Out := .next (s.setWires [valueOf (xfade dry wet m)])

end Sys2Proof.Machine
end

