-- ==== Sys2Proof/Machine/Smoother.lean ====
section
/-! DEFINITION. The parameter-ramp smoother (41_smoother.md): its operations, and the meanings of the SV rows. -/

namespace Sys2Proof.Machine

open Sys2Proof

/-- SV.SNAP (R161). -/
def Smoother.snap (v : Smoother) : Smoother :=
  { v with current := v.target, stepsRemaining := 0, increment := 0 }

/-- The length of a full ramp: `ceil_int(T * sr)` (R161). -/
def rampSteps (t sr : F32) : Calc Nat := do
  let p ← cMul t sr
  pure (ceilNat p)

/-- SV.RESET (R161). -/
def Smoother.reset (v : Smoother) (sr t : F32) : Calc Smoother := do
  let n ← rampSteps t sr
  pure { v with numSteps := n }.snap

/-- SV.SETTARGET (R162). -/
def Smoother.setTarget (v : Smoother) (t : F32) : Calc Smoother :=
  if dEq t v.target then pure v
  else if v.numSteps = 0 then
    pure { v with target := t, current := t, stepsRemaining := 0, increment := 0 }
  else do
    let inc ← cDiv (← cSub t v.current) (fOfNat v.numSteps)
    pure { v with target := t, increment := inc, stepsRemaining := v.numSteps }

/-- SV.NEXT (R163): the value and the smoother after it. -/
def Smoother.next (v : Smoother) : Calc (F32 × Smoother) :=
  if v.stepsRemaining = 0 then pure (v.current, v)
  else if v.stepsRemaining = 1 then
    pure (v.target, { v with stepsRemaining := 0, current := v.target })
  else do
    let c ← cAdd v.current v.increment
    pure (c, { v with stepsRemaining := v.stepsRemaining - 1, current := c })

/-- Meaning of SV.RESET (R161). -/
def execSvReset (v : SmootherId) (sr t : F32) (s : State) : Out :=
  .next (s.setSmoother v (valueOf ((s.smoother v).reset sr t)))

/-- Meaning of SV.SNAP (R161). -/
def execSvSnap (v : SmootherId) (s : State) : Out := .next (s.setSmoother v (s.smoother v).snap)

/-- Meaning of SV.SETTARGET (R162). -/
def execSvSettarget (v : SmootherId) (t : F32) (s : State) : Out :=
  .next (s.setSmoother v (valueOf ((s.smoother v).setTarget t)))

/-- Meaning of SV.NEXT (R163). -/
def execSvNext (v : SmootherId) (s : State) : Out :=
  let r := valueOf (s.smoother v).next
  .next ((s.setSmoother v r.2).setWires [r.1])

/-- Meaning of SV.CURRENT (R164). -/
def execSvCurrent (v : SmootherId) (s : State) : Out := .next (s.setWires [(s.smoother v).current])

end Sys2Proof.Machine
end

