-- ==== Sys2Proof/Machine/Frames.lean ====
section
/-! DEFINITION. The common contract of the fifteen units (45_units_cathode.md R230): the loop over the frames of a block
with the mix advance, the silence threshold, and the in-place buffer access. -/

namespace Sys2Proof.Machine

open Sys2Proof

/-- Write one frame of the buffer. -/
def writeFrame (b : SampleBuffer) (i : Nat) (l r : F32) : SampleBuffer := (b.set .left i l).set .right i r

/-- UNIT.PROCESS's loop (R230) for `k` frames from frame `i`: `mixNext` advances the unit's mix smoother and gives its
new value, `sample` is the unit's SAMPLE. A frame whose mix is below the threshold is skipped: the buffer and the rest
of the unit stay as they are. -/
def unitFrames {U : Type} (mixNext : U → Calc (F32 × U)) (sample : U → F32 → F32 → F32 → Calc ((F32 × F32) × U)) :
    Nat → Nat → U → SampleBuffer → Calc (U × SampleBuffer)
  | 0, _, u, b => pure (u, b)
  | k + 1, i, u, b => do
    let (m, u1) ← mixNext u
    if dLt m mixSilence then unitFrames mixNext sample k (i + 1) u1 b
    else do
      let l ← bufRead b .left i
      let r ← bufRead b .right i
      let (o, u2) ← sample u1 l r m
      unitFrames mixNext sample k (i + 1) u2 (writeFrame b i o.1 o.2)

/-- The crossfade of both channels (R240). -/
def xfade2 (l r wL wR m : F32) : Calc (F32 × F32) := do
  let oL ← xfade l wL m
  let oR ← xfade r wR m
  pure (oL, oR)

end Sys2Proof.Machine
end

