-- ==== Sys2Proof/Machine/Cathode.lean ====
section
/-! DEFINITION. The Cathode family (45_units_cathode.md): for each unit its SAMPLE, its block start where it has one, and its run over the
frames of a block. Every operation is written in the order of its rule. -/

namespace Sys2Proof.Machine

open Sys2Proof

/-- The advance of `Ember.mix` (R230). -/
def Ember.mixNext (u : Ember) : Calc (F32 × Ember) := do
  let (m, v) ← u.mix.next
  pure (m, { u with mix := v })

/-- The one-pole input smoother and the shaper of one channel of Ember: the new register and the wet value (R234). -/
def emberChannel (x prev : F32) : Calc (F32 × F32) := do
  let sm ← cAdd (← cMul k0_7 x) (← cMul k0_3 prev)
  let w ← cMul (← emberShape sm) k0_7
  pure (sm, w)

/-- Ember.SAMPLE (R234). -/
def Ember.sample (u : Ember) (l r m : F32) : Calc ((F32 × F32) × Ember) := do
  let (sL, wL) ← emberChannel l u.prevL
  let (sR, wR) ← emberChannel r u.prevR
  let o ← xfade2 l r wL wR m
  pure (o, { u with prevL := sL, prevR := sR })

/-- UNIT.PROCESS of Ember over frames 0 to n - 1 (R230). -/
def Ember.run (u : Ember) (n : Nat) (b : SampleBuffer) : Calc (Ember × SampleBuffer) :=
  unitFrames Ember.mixNext Ember.sample n 0 u b

/-- The advance of `Velvet.mix` (R230). -/
def Velvet.mixNext (u : Velvet) : Calc (F32 × Velvet) := do
  let (m, v) ← u.mix.next
  pure (m, { u with mix := v })

/-- Velvet.BLOCKSTART (R235): the coefficients from the block-start mix (R233). -/
def Velvet.blockStart (u : Velvet) (sr : F32) : Calc Velvet := do
  let m0 := u.mix.current
  let fc ← cSub k3000 (← cMul k2000 m0)
  let q ← cAdd k1 (← cMul k0_5 m0)
  let fL ← u.fL.setc .lp fc q sr k0
  let fR ← u.fR.setc .lp fc q sr k0
  pure { u with fL := fL, fR := fR }

/-- Velvet.SAMPLE (R235). -/
def Velvet.sample (u : Velvet) (l r m : F32) : Calc ((F32 × F32) × Velvet) := do
  let (wL, fL) ← u.fL.process l
  let (wR, fR) ← u.fR.process r
  let o ← xfade2 l r wL wR m
  pure (o, { u with fL := fL, fR := fR })

/-- UNIT.PROCESS of Velvet over frames 0 to n - 1 (R230). -/
def Velvet.run (sr : F32) (u : Velvet) (n : Nat) (b : SampleBuffer) : Calc (Velvet × SampleBuffer) := do
  let u1 ← u.blockStart sr
  unitFrames Velvet.mixNext Velvet.sample n 0 u1 b

/-- The advance of `Drift.mix` (R230). -/
def Drift.mixNext (u : Drift) : Calc (F32 × Drift) := do
  let (m, v) ← u.mix.next
  pure (m, { u with mix := v })

/-- Drift's lag in samples for a phase (R236). -/
def driftLag (p sr : F32) : Calc F32 := do
  let o ← lfoSine p
  cMul (← cAdd k0_015 (← cMul k0_012 o)) sr

/-- Drift's right phase, a quarter cycle ahead (R236). -/
def driftRight (p : F32) : Calc F32 := do
  let q ← cAdd p k0_25
  if dGe q k1 then cSub q k1 else pure q

/-- Drift.SAMPLE (R236). -/
def Drift.sample (sr : F32) (u : Drift) (l r m : F32) : Calc ((F32 × F32) × Drift) := do
  let pR ← driftRight u.p
  let tL ← driftLag u.p sr
  let tR ← driftLag pR sr
  let aL ← cReadF u.d .left tL
  let aR ← cReadF u.d .right tR
  let d ← cPush u.d l r
  let p ← lfoAdvance u.p k0_3 sr
  let wL ← cMul k0_7 aL
  let wR ← cMul k0_7 aR
  let o ← xfade2 l r wL wR m
  pure (o, { u with d := d, p := p })

/-- UNIT.PROCESS of Drift over frames 0 to n - 1 (R230). -/
def Drift.run (sr : F32) (u : Drift) (n : Nat) (b : SampleBuffer) : Calc (Drift × SampleBuffer) :=
  unitFrames Drift.mixNext (Drift.sample sr) n 0 u b

/-- The advance of `Echo.mix` (R230). -/
def Echo.mixNext (u : Echo) : Calc (F32 × Echo) := do
  let (m, v) ← u.mix.next
  pure (m, { u with mix := v })

/-- Echo.SAMPLE (R237). -/
def Echo.sample (sr : F32) (u : Echo) (l r m : F32) : Calc ((F32 × F32) × Echo) := do
  let t ← cAdd (← cMul k0_35 sr) (← cMul k15 (← lfoSine u.p))
  let aL ← cReadF u.d .left t
  let aR ← cReadF u.d .right t
  let (wL, fL) ← u.fL.process aL
  let (wR, fR) ← u.fR.process aR
  let d ← cPush u.d (← cAdd l (← cMul wL k0_4)) (← cAdd r (← cMul wR k0_4))
  let p ← lfoAdvance u.p k0_5 sr
  let o ← xfade2 l r wL wR m
  pure (o, { u with d := d, p := p, fL := fL, fR := fR })

/-- UNIT.PROCESS of Echo over frames 0 to n - 1 (R230). -/
def Echo.run (sr : F32) (u : Echo) (n : Nat) (b : SampleBuffer) : Calc (Echo × SampleBuffer) :=
  unitFrames Echo.mixNext (Echo.sample sr) n 0 u b

/-- The advance of `Haze.mix` (R230). -/
def Haze.mixNext (u : Haze) : Calc (F32 × Haze) := do
  let (m, v) ← u.mix.next
  pure (m, { u with mix := v })

/-- Haze.SAMPLE (R238): the cross-channel path of the block. -/
def Haze.sample (u : Haze) (l r m : F32) : Calc ((F32 × F32) × Haze) := do
  let (aL, aR) ← cReadI u.combA u.lagA
  let (bL, bR) ← cReadI u.combB u.lagB
  let (wL, fL) ← u.fL.process (← cAdd (← cMul k0_6 aL) (← cMul k0_4 bL))
  let (wR, fR) ← u.fR.process (← cAdd (← cMul k0_6 aR) (← cMul k0_4 bR))
  let dA ← cPush u.combA (← cAdd l (← cMul k0_45 wR)) (← cAdd r (← cMul k0_5 wL))
  let dB ← cPush u.combB (← cAdd l (← cMul k0_3 aR)) (← cAdd r (← cMul k0_3 aL))
  let o ← xfade2 l r wL wR m
  pure (o, { u with combA := dA, combB := dB, fL := fL, fR := fR })

/-- UNIT.PROCESS of Haze over frames 0 to n - 1 (R230). -/
def Haze.run (u : Haze) (n : Nat) (b : SampleBuffer) : Calc (Haze × SampleBuffer) :=
  unitFrames Haze.mixNext Haze.sample n 0 u b

end Sys2Proof.Machine
end

