-- ==== Sys2Proof/Machine/Filament.lean ====
section
/-! DEFINITION. The Filament family (46_units_filament.md): for each unit its SAMPLE, its block start where it has one, and its run over the
frames of a block. Every operation is written in the order of its rule. -/

namespace Sys2Proof.Machine

open Sys2Proof

/-- The advance of `Fracture.mix` (R230). -/
def Fracture.mixNext (u : Fracture) : Calc (F32 × Fracture) := do
  let (m, v) ← u.mix.next
  pure (m, { u with mix := v })

/-- Fracture's clip and quantiser of one channel (R250). -/
def fractureChannel (x g nb : F32) : Calc F32 := do quant (hardclip (← cMul x g)) nb

/-- Fracture.SAMPLE (R250). -/
def Fracture.sample (u : Fracture) (l r m : F32) : Calc ((F32 × F32) × Fracture) := do
  let g ← cAdd k1 (← cMul m k4)
  let nb ← cSub k12 (← cMul m k4)
  let wL ← fractureChannel l g nb
  let wR ← fractureChannel r g nb
  let o ← xfade2 l r wL wR m
  pure (o, u)

/-- UNIT.PROCESS of Fracture over frames 0 to n - 1 (R230). -/
def Fracture.run (u : Fracture) (n : Nat) (b : SampleBuffer) : Calc (Fracture × SampleBuffer) :=
  unitFrames Fracture.mixNext Fracture.sample n 0 u b

/-- The advance of `Prism.mix` (R230). -/
def Prism.mixNext (u : Prism) : Calc (F32 × Prism) := do
  let (m, v) ← u.mix.next
  pure (m, { u with mix := v })

/-- Prism.SAMPLE (R251). -/
def Prism.sample (u : Prism) (l r m : F32) : Calc ((F32 × F32) × Prism) := do
  let fb ← cAdd k0_5 (← cMul m k0_35)
  let wL ← cAdd l (← cMul u.zL fb)
  let wR ← cAdd r (← cMul u.zR fb)
  let o ← xfade2 l r wL wR m
  pure (o, { u with zL := wL, zR := wR })

/-- UNIT.PROCESS of Prism over frames 0 to n - 1 (R230). -/
def Prism.run (u : Prism) (n : Nat) (b : SampleBuffer) : Calc (Prism × SampleBuffer) :=
  unitFrames Prism.mixNext Prism.sample n 0 u b

/-- The advance of `Phase.mix` (R230). -/
def Phase.mixNext (u : Phase) : Calc (F32 × Phase) := do
  let (m, v) ← u.mix.next
  pure (m, { u with mix := v })

/-- Phase.SAMPLE (R252). -/
def Phase.sample (sr : F32) (u : Phase) (l r m : F32) : Calc ((F32 × F32) × Phase) := do
  let t ← cMul (← cMul (← lfoTri u.p) k0_008) sr
  let aL ← cReadF u.d .left t
  let aR ← cReadF u.d .right t
  let fb ← cAdd k0_5 (← cMul m k0_3)
  let d ← cPush u.d (← cAdd l (← cMul aL fb)) (← cAdd r (← cMul aR fb))
  let p ← lfoAdvance u.p k0_2 sr
  let wL ← cSub l (← cMul aL k0_7)
  let wR ← cSub r (← cMul aR k0_7)
  let o ← xfade2 l r wL wR m
  pure (o, { u with d := d, p := p })

/-- UNIT.PROCESS of Phase over frames 0 to n - 1 (R230). -/
def Phase.run (sr : F32) (u : Phase) (n : Nat) (b : SampleBuffer) : Calc (Phase × SampleBuffer) :=
  unitFrames Phase.mixNext (Phase.sample sr) n 0 u b

/-- The advance of `Cascade.mix` (R230). -/
def Cascade.mixNext (u : Cascade) : Calc (F32 × Cascade) := do
  let (m, v) ← u.mix.next
  pure (m, { u with mix := v })

/-- The weighted sum of Cascade's four taps (R253). -/
def cascadeSum (t0 t1 t2 t3 : F32) : Calc F32 := do
  let a ← cAdd (← cMul k0_7 t0) (← cMul k0_5 t1)
  let b ← cAdd a (← cMul k0_35 t2)
  cMul (← cAdd b (← cMul k0_2 t3)) k0_5

/-- Cascade.SAMPLE (R253). -/
def Cascade.sample (u : Cascade) (l r m : F32) : Calc ((F32 × F32) × Cascade) := do
  let t0 ← cReadI u.d u.lag0
  let t1 ← cReadI u.d u.lag1
  let t2 ← cReadI u.d u.lag2
  let t3 ← cReadI u.d u.lag3
  let wL ← cascadeSum t0.1 t1.1 t2.1 t3.1
  let wR ← cascadeSum t0.2 t1.2 t2.2 t3.2
  let d ← cPush u.d (← cAdd l (← cMul k0_15 t3.1)) (← cAdd r (← cMul k0_15 t3.2))
  let o ← xfade2 l r wL wR m
  pure (o, { u with d := d })

/-- UNIT.PROCESS of Cascade over frames 0 to n - 1 (R230). -/
def Cascade.run (u : Cascade) (n : Nat) (b : SampleBuffer) : Calc (Cascade × SampleBuffer) :=
  unitFrames Cascade.mixNext Cascade.sample n 0 u b

/-- The advance of `Glisten.mix` (R230). -/
def Glisten.mixNext (u : Glisten) : Calc (F32 × Glisten) := do
  let (m, v) ← u.mix.next
  pure (m, { u with mix := v })

/-- Glisten.SAMPLE (R254): the shimmer tap is read at its own index, which advances by 2. -/
def Glisten.sample (u : Glisten) (l r m : F32) : Calc ((F32 × F32) × Glisten) := do
  let (mL, mR) ← cReadI u.main u.lagM
  needSize u.shim.cap
  let (sL, fL) ← u.fL.process (u.shim.get .left u.shimR)
  let (sR, fR) ← u.fR.process (u.shim.get .right u.shimR)
  let wL ← cAdd (← cMul k0_6 mL) (← cMul k0_3 sL)
  let wR ← cAdd (← cMul k0_6 mR) (← cMul k0_3 sR)
  let dM ← cPush u.main (← cAdd l (← cMul glistenFb mL)) (← cAdd r (← cMul glistenFb mR))
  let dS ← cPush u.shim l r
  let o ← xfade2 l r wL wR m
  pure (o, { u with main := dM, shim := dS, shimR := (u.shimR + 2) % u.shim.cap, fL := fL, fR := fR })

/-- UNIT.PROCESS of Glisten over frames 0 to n - 1 (R230). -/
def Glisten.run (u : Glisten) (n : Nat) (b : SampleBuffer) : Calc (Glisten × SampleBuffer) :=
  unitFrames Glisten.mixNext Glisten.sample n 0 u b

end Sys2Proof.Machine
end

