-- ==== Sys2Proof/Machine/Flags.lean ====
section
/-! DEFINITION. The STATUS word (10_state.md R34). The block has no arithmetic flags (R44): this word, with the sticky
bits that `raise` sets (Machine/Ops.lean), is every flag there is. -/

namespace Sys2Proof.Machine

open Sys2Proof

/-- The code of a family (10_state.md R33, 49_chain_and_meter.md R290). -/
def familyCode : Family → BitVec 2
  | .cathode => 0
  | .filament => 1
  | .steel => 2

/-- One bit as a word. -/
def bitAt (b : Bool) (k : Nat) : Word := (if b then 1#32 else 0#32) <<< k

/-- The STATUS word (10_state.md R34): PREPARED, the two mirrors, the six sticky bits; every other bit reads zero. -/
def State.statusWord (s : State) : Word :=
  bitAt s.status.prepared 0 ||| bitAt s.bypassPrev 1 ||| ((familyCode s.family).setWidth 32 <<< 2)
    ||| bitAt s.status.eIllegal 8 ||| bitAt s.status.eSel 9 ||| bitAt s.status.eNotPrep 10
    ||| bitAt s.status.eLen 11 ||| bitAt s.status.eIndex 12 ||| bitAt s.status.ePort 13

/-- The sticky bit of a refusal code. -/
def State.sticky (s : State) : Err → Bool
  | .illegal => s.status.eIllegal
  | .sel => s.status.eSel
  | .notPrep => s.status.eNotPrep
  | .len => s.status.eLen
  | .index => s.status.eIndex
  | .port => s.status.ePort

end Sys2Proof.Machine
end

