-- ==== Sys2Proof/Machine/Operands.lean ====
section
/-! DEFINITION. The operand forms: the `sel` field (30_encoding.md R104), the reading and legalisation of `data` (R102),
and the dispatch table (R112). -/

namespace Sys2Proof.Machine

open Sys2Proof

/-- The configuration register a `sel` names (10_state.md R31). -/
def cfgOfSel (sel : BitVec 8) : Option CfgId :=
  if sel = 0x00#8 then some .sampleRate
  else if sel = 0x01#8 then some .maxBlock
  else if sel = 0x02#8 then some .numCh
  else none

/-- The holder a `sel` names (10_state.md R33). -/
def holderOfSel (sel : BitVec 8) : Option HolderId :=
  if sel = 0x00#8 then some .drive
  else if sel = 0x01#8 then some .tone
  else if sel = 0x02#8 then some .output
  else if sel = 0x03#8 then some .bypass
  else if sel = 0x04#8 then some .preampType
  else (unitOfTag sel).map .mix

/-- The meter a `sel` names (10_state.md R41). -/
def meterOfSel (sel : BitVec 8) : Option MeterId :=
  if sel = 0x00#8 then some .inL
  else if sel = 0x01#8 then some .inR
  else if sel = 0x02#8 then some .outL
  else if sel = 0x03#8 then some .outR
  else none

/-- The buffer channel a `sel` names (30_encoding.md R104). -/
def channelOfSel (sel : BitVec 8) : Option Channel :=
  if sel = 0x00#8 then some .left else if sel = 0x01#8 then some .right else none

/-- The legalised word SETPARAM stores (30_encoding.md R102, 40_host_commands.md R136). The comparisons are those of R9
on the word as it stands: a subnormal keeps its bits (log 10). -/
def legalise (h : HolderId) (data : Word) : Word :=
  match h with
  | .bypass => if data ≠ 0 then 1 else 0
  | .preampType => if 2 < data.toNat then 2 else data
  | _ => if isNaN data then 0 else if fLt data k0 then k0 else if fLt k1 data then k1 else data

/-- The family a `preampType` word selects (49_chain_and_meter.md R290); a holder never exceeds 2 (R136; log 24). -/
def familyOf (w : Word) : Family := if w = 0 then .cathode else if w = 1 then .filament else .steel

/-- The dispatch table `CHAIN[fam][cat]` (30_encoding.md R112). -/
def chain : Family → Category → UnitId
  | .cathode, .distortion => .ember
  | .cathode, .filter => .velvet
  | .cathode, .modulation => .drift
  | .cathode, .delay => .echo
  | .cathode, .reverb => .haze
  | .filament, .distortion => .fracture
  | .filament, .filter => .prism
  | .filament, .modulation => .phase
  | .filament, .delay => .cascade
  | .filament, .reverb => .glisten
  | .steel, .distortion => .scorch
  | .steel, .filter => .snarl
  | .steel, .modulation => .shred
  | .steel, .delay => .grind
  | .steel, .reverb => .rust

end Sys2Proof.Machine
end

