-- ==== Sys2Proof/Machine/PreampStage.lean ====
section
/-! DEFINITION. The preamp stage (48_preamp.md): the tone shelf, the per-sample pipeline, and the meanings of PREAMP and
PREAMP.SETSHELF. -/

namespace Sys2Proof.Machine

open Sys2Proof

/-- PREAMP.SETSHELF (R282): both shelf instances from one tone value. -/
def Preamp.setShelf (p : Preamp) (sr tn : F32) : Calc Preamp := do
  let fc ← cAdd k800 (← cMul tn k4000)
  let sg ← cAdd k0_5 tn
  let fL ← p.shelfL.setc .ls fc Config.qShelf sr sg
  let fR ← p.shelfR.setc .ls fc Config.qShelf sr sg
  pure { p with shelfL := fL, shelfR := fR }

/-- The two shapers on one driven sample (R280). -/
def preampShape (x g : F32) : Calc F32 := do softclip (← xfmrSat (← cMul x g))

/-- The three smoother advances of a frame, in the order drive, tone, output (R280). -/
def Preamp.advance (p : Preamp) : Calc ((F32 × F32 × F32) × Preamp) := do
  let (dv, vd) ← p.drive.next
  let (tn, vt) ← p.tone.next
  let (og, vo) ← p.out.next
  pure ((dv, tn, og), { p with drive := vd, tone := vt, out := vo })

/-- One frame of the preamp (R280): the output pair and the preamp after it. -/
def Preamp.frame (sr : F32) (p : Preamp) (l r : F32) : Calc ((F32 × F32) × Preamp) := do
  let ((dv, tn, og), p1) ← p.advance
  let p2 ← p1.setShelf sr tn
  let g ← cAdd k1 (← cMul dv k3)
  let (l3, shL) ← p2.shelfL.process (← preampShape l g)
  let (l4, dcL) ← p2.dcL.process l3
  let oL ← cMul l4 og
  let (r3, shR) ← p2.shelfR.process (← preampShape r g)
  let (r4, dcR) ← p2.dcR.process r3
  let oR ← cMul r4 og
  pure ((oL, oR), { p2 with shelfL := shL, dcL := dcL, shelfR := shR, dcR := dcR })

/-- PREAMP over `k` frames from frame `i` (R280). -/
def preampFrames (sr : F32) : Nat → Nat → Preamp → SampleBuffer → Calc (Preamp × SampleBuffer)
  | 0, _, p, b => pure (p, b)
  | k + 1, i, p, b => do
    let l ← bufRead b .left i
    let r ← bufRead b .right i
    let (o, p1) ← p.frame sr l r
    preampFrames sr k (i + 1) p1 (writeFrame b i o.1 o.2)

/-- PREAMP(n) (R280). -/
def preamp (n : Nat) (s : State) : Calc State := do
  let (p, b) ← preampFrames s.sr n 0 s.pre s.buf
  pure { s with pre := p, buf := b }

/-- Meaning of PREAMP (R280). -/
def execPreamp (n : Word) (s : State) : Out := finishOp (preamp n.toNat s)

/-- Meaning of PREAMP.SETSHELF (R282). -/
def execPreampSetshelf (tn : F32) (s : State) : Out :=
  .next { s with pre := valueOf (s.pre.setShelf s.sr tn) }

end Sys2Proof.Machine
end

