-- ==== Sys2Proof/Machine/Steel.lean ====
section
/-! DEFINITION. The Steel family (47_units_steel.md): for each unit its SAMPLE, its block start where it has one, and its run over the
frames of a block. Every operation is written in the order of its rule. -/

namespace Sys2Proof.Machine

open Sys2Proof

/-- The advance of `Scorch.mix` (R230). -/
def Scorch.mixNext (u : Scorch) : Calc (F32 × Scorch) := do
  let (m, v) ← u.mix.next
  pure (m, { u with mix := v })

/-- Scorch's clip and rectified blend of one channel (R265). -/
def scorchChannel (x g : F32) : Calc F32 := do
  let c := hardclip (← cMul x g)
  cAdd c (← cMul k0_3 (rectify c))

/-- Scorch.SAMPLE (R265). -/
def Scorch.sample (u : Scorch) (l r m : F32) : Calc ((F32 × F32) × Scorch) := do
  let g ← cAdd k1 (← cMul m k8)
  let wL ← scorchChannel l g
  let wR ← scorchChannel r g
  let o ← xfade2 l r wL wR m
  pure (o, u)

/-- UNIT.PROCESS of Scorch over frames 0 to n - 1 (R230). -/
def Scorch.run (u : Scorch) (n : Nat) (b : SampleBuffer) : Calc (Scorch × SampleBuffer) :=
  unitFrames Scorch.mixNext Scorch.sample n 0 u b

/-- The advance of `Snarl.mix` (R230). -/
def Snarl.mixNext (u : Snarl) : Calc (F32 × Snarl) := do
  let (m, v) ← u.mix.next
  pure (m, { u with mix := v })

/-- Snarl.BLOCKSTART (R266). -/
def Snarl.blockStart (u : Snarl) (sr : F32) : Calc Snarl := do
  let m0 := u.mix.current
  let fc ← cAdd k800 (← cMul k1200 m0)
  let q ← cAdd k2 (← cMul k4 m0)
  let fL ← u.fL.setc .bp fc q sr k0
  let fR ← u.fR.setc .bp fc q sr k0
  pure { u with fL := fL, fR := fR }

/-- Snarl.SAMPLE (R266): the drive uses the per-sample mix. -/
def Snarl.sample (u : Snarl) (l r m : F32) : Calc ((F32 × F32) × Snarl) := do
  let g ← cAdd k1 (← cMul m k3)
  let (yL, fL) ← u.fL.process l
  let wL ← note (tanhF (← cMul yL g))
  let (yR, fR) ← u.fR.process r
  let wR ← note (tanhF (← cMul yR g))
  let o ← xfade2 l r wL wR m
  pure (o, { u with fL := fL, fR := fR })

/-- UNIT.PROCESS of Snarl over frames 0 to n - 1 (R230). -/
def Snarl.run (sr : F32) (u : Snarl) (n : Nat) (b : SampleBuffer) : Calc (Snarl × SampleBuffer) := do
  let u1 ← u.blockStart sr
  unitFrames Snarl.mixNext Snarl.sample n 0 u1 b

/-- The advance of `Shred.mix` (R230). -/
def Shred.mixNext (u : Shred) : Calc (F32 × Shred) := do
  let (m, v) ← u.mix.next
  pure (m, { u with mix := v })

/-- Shred.SAMPLE (R267): the crossfade amount is scaled (R240). -/
def Shred.sample (sr : F32) (u : Shred) (l r m : F32) : Calc ((F32 × F32) × Shred) := do
  let c ← lfoSine u.p
  let p ← lfoAdvance u.p (← cAdd k200 (← cMul k300 m)) sr
  let k ← cMul m k0_8
  let wL ← cMul l c
  let wR ← cMul r c
  let o ← xfade2 l r wL wR k
  pure (o, { u with p := p })

/-- UNIT.PROCESS of Shred over frames 0 to n - 1 (R230). -/
def Shred.run (sr : F32) (u : Shred) (n : Nat) (b : SampleBuffer) : Calc (Shred × SampleBuffer) :=
  unitFrames Shred.mixNext (Shred.sample sr) n 0 u b

/-- The advance of `Grind.mix` (R230). -/
def Grind.mixNext (u : Grind) : Calc (F32 × Grind) := do
  let (m, v) ← u.mix.next
  pure (m, { u with mix := v })

/-- Grind's sample-and-hold counter after a sample, for the hold factor `1 + floor_int(m * 7)`: the pseudocode
of R268. R48 and R268 also say that it stays in [0, 7]; where rounding takes the mix to 8/7 or more (41_smoother.md R165)
the two part, and the model follows the pseudocode (DESIGN CHOICE, log 31). -/
def grindCount (cnt hold : Nat) : Nat := if hold ≤ cnt + 1 then 0 else cnt + 1

/-- Grind.SAMPLE (R268). -/
def Grind.sample (u : Grind) (l r m : F32) : Calc ((F32 × F32) × Grind) := do
  let (tL, tR) ← cReadI u.d u.lag
  let hold := 1 + floorNat (← cMul m k7)
  let nb ← cSub k16 (← cMul m k12)
  let hL ← if u.cnt = 0 then quant tL nb else pure u.heldL
  let hR ← if u.cnt = 0 then quant tR nb else pure u.heldR
  let d ← cPush u.d (← cAdd l (← cMul k0_5 hL)) (← cAdd r (← cMul k0_5 hR))
  let o ← xfade2 l r hL hR m
  pure (o, { u with d := d, heldL := hL, heldR := hR, cnt := grindCount u.cnt hold })

/-- UNIT.PROCESS of Grind over frames 0 to n - 1 (R230). -/
def Grind.run (u : Grind) (n : Nat) (b : SampleBuffer) : Calc (Grind × SampleBuffer) :=
  unitFrames Grind.mixNext Grind.sample n 0 u b

/-- The advance of `Rust.mix` (R230). -/
def Rust.mixNext (u : Rust) : Calc (F32 × Rust) := do
  let (m, v) ← u.mix.next
  pure (m, { u with mix := v })

/-- Rust.SAMPLE (R269): the envelope is updated before the gate uses it. -/
def Rust.sample (u : Rust) (l r m : F32) : Calc ((F32 × F32) × Rust) := do
  let env ← envStep u.env (dMax (dAbs l) (dAbs r)) u.ca u.cr
  let gt ← gate env
  let (aL, aR) ← cReadI u.combA u.lagA
  let (bL, bR) ← cReadI u.combB u.lagB
  let wL ← cMul (← cMul (← cAdd aL bL) k0_5) gt
  let wR ← cMul (← cMul (← cAdd aR bR) k0_5) gt
  let dA ← cPush u.combA (← cAdd l (← cMul rustFb bL)) (← cAdd r (← cMul rustFb bR))
  let dB ← cPush u.combB (← cAdd l (← cMul rustFb aL)) (← cAdd r (← cMul rustFb aR))
  let o ← xfade2 l r wL wR m
  pure (o, { u with combA := dA, combB := dB, env := env })

/-- UNIT.PROCESS of Rust over frames 0 to n - 1 (R230). -/
def Rust.run (u : Rust) (n : Nat) (b : SampleBuffer) : Calc (Rust × SampleBuffer) :=
  unitFrames Rust.mixNext Rust.sample n 0 u b

end Sys2Proof.Machine
end

