-- ==== Sys2Proof/Machine/Chain.lean ====
section
/-! DEFINITION. The chain sequencer (49_chain_and_meter.md): UNIT.PROCESS by tag, the five units of the active family,
the block peaks and the meters, one non-bypassed block of PROCESS, and the meanings of the UNIT8 rows and of
UNIT.PROCESS and UNIT.SETMIX. -/

namespace Sys2Proof.Machine

open Sys2Proof

/-- UNIT.PROCESS(T, n) (45_units_cathode.md R230). -/
def unitProcess (u : UnitId) (n : Nat) (s : State) : Calc State :=
  match u with
  | .ember => do
    let (x, b) ← Ember.run s.units.ember n s.buf
    pure { s with units := { s.units with ember := x }, buf := b }
  | .velvet => do
    let (x, b) ← Velvet.run s.sr s.units.velvet n s.buf
    pure { s with units := { s.units with velvet := x }, buf := b }
  | .drift => do
    let (x, b) ← Drift.run s.sr s.units.drift n s.buf
    pure { s with units := { s.units with drift := x }, buf := b }
  | .echo => do
    let (x, b) ← Echo.run s.sr s.units.echo n s.buf
    pure { s with units := { s.units with echo := x }, buf := b }
  | .haze => do
    let (x, b) ← Haze.run s.units.haze n s.buf
    pure { s with units := { s.units with haze := x }, buf := b }
  | .fracture => do
    let (x, b) ← Fracture.run s.units.fracture n s.buf
    pure { s with units := { s.units with fracture := x }, buf := b }
  | .prism => do
    let (x, b) ← Prism.run s.units.prism n s.buf
    pure { s with units := { s.units with prism := x }, buf := b }
  | .phase => do
    let (x, b) ← Phase.run s.sr s.units.phase n s.buf
    pure { s with units := { s.units with phase := x }, buf := b }
  | .cascade => do
    let (x, b) ← Cascade.run s.units.cascade n s.buf
    pure { s with units := { s.units with cascade := x }, buf := b }
  | .glisten => do
    let (x, b) ← Glisten.run s.units.glisten n s.buf
    pure { s with units := { s.units with glisten := x }, buf := b }
  | .scorch => do
    let (x, b) ← Scorch.run s.units.scorch n s.buf
    pure { s with units := { s.units with scorch := x }, buf := b }
  | .snarl => do
    let (x, b) ← Snarl.run s.sr s.units.snarl n s.buf
    pure { s with units := { s.units with snarl := x }, buf := b }
  | .shred => do
    let (x, b) ← Shred.run s.sr s.units.shred n s.buf
    pure { s with units := { s.units with shred := x }, buf := b }
  | .grind => do
    let (x, b) ← Grind.run s.units.grind n s.buf
    pure { s with units := { s.units with grind := x }, buf := b }
  | .rust => do
    let (x, b) ← Rust.run s.units.rust n s.buf
    pure { s with units := { s.units with rust := x }, buf := b }

/-- The five units of the active family over the whole block, in category order (R291, 30_encoding.md R112). -/
def runChain (n : Nat) (s : State) : Calc State := do
  let s1 ← unitProcess (chain s.family .distortion) n s
  let s2 ← unitProcess (chain s.family .filter) n s1
  let s3 ← unitProcess (chain s.family .modulation) n s2
  let s4 ← unitProcess (chain s.family .delay) n s3
  unitProcess (chain s.family .reverb) n s4

/-- The largest `abs` of each channel over `k` frames from frame `i` (40_host_commands.md R135). -/
def peaks (b : SampleBuffer) : Nat → Nat → F32 × F32 → Calc (F32 × F32)
  | 0, _, pk => pure pk
  | k + 1, i, pk => do
    let l ← bufRead b .left i
    let r ← bufRead b .right i
    peaks b k (i + 1) (dMax pk.1 (dAbs l), dMax pk.2 (dAbs r))

/-- METER.UPDATE (44_primitives.md R215) of one register of the block. -/
def meterUpdate (k : MeterId) (pk : F32) (s : State) : Calc State := do
  let v ← meterNext (s.meter k) pk
  pure (s.setMeter k v)

/-- The four meter updates at the end of a block (49_chain_and_meter.md R294). -/
def meterBlock (pin pout : F32 × F32) (s : State) : Calc State := do
  let s1 ← meterUpdate .inL pin.1 s
  let s2 ← meterUpdate .inR pin.2 s1
  let s3 ← meterUpdate .outL pout.1 s2
  meterUpdate .outR pout.2 s3

/-- The non-bypassed part of PROCESS: peaks before, preamp, chain, peaks after, meters (40_host_commands.md R135). -/
def processFrames (n : Nat) (s : State) : Calc State := do
  let pin ← peaks s.buf n 0 (k0, k0)
  let s1 ← preamp n s
  let s2 ← runChain n s1
  let pout ← peaks s2.buf n 0 (k0, k0)
  meterBlock pin pout s2

/-- Meaning of UNIT.EMBER: the sequencer's dispatch of its tag over `n` frames (R234, R230). -/
def execUnitEmber (n : Word) (s : State) : Out := finishOp (unitProcess .ember n.toNat s)
/-- Meaning of UNIT.VELVET: the sequencer's dispatch of its tag over `n` frames (R235, R230). -/
def execUnitVelvet (n : Word) (s : State) : Out := finishOp (unitProcess .velvet n.toNat s)
/-- Meaning of UNIT.DRIFT: the sequencer's dispatch of its tag over `n` frames (R236, R230). -/
def execUnitDrift (n : Word) (s : State) : Out := finishOp (unitProcess .drift n.toNat s)
/-- Meaning of UNIT.ECHO: the sequencer's dispatch of its tag over `n` frames (R237, R230). -/
def execUnitEcho (n : Word) (s : State) : Out := finishOp (unitProcess .echo n.toNat s)
/-- Meaning of UNIT.HAZE: the sequencer's dispatch of its tag over `n` frames (R238, R230). -/
def execUnitHaze (n : Word) (s : State) : Out := finishOp (unitProcess .haze n.toNat s)
/-- Meaning of UNIT.FRACTURE: the sequencer's dispatch of its tag over `n` frames (R250, R230). -/
def execUnitFracture (n : Word) (s : State) : Out := finishOp (unitProcess .fracture n.toNat s)
/-- Meaning of UNIT.PRISM: the sequencer's dispatch of its tag over `n` frames (R251, R230). -/
def execUnitPrism (n : Word) (s : State) : Out := finishOp (unitProcess .prism n.toNat s)
/-- Meaning of UNIT.PHASE: the sequencer's dispatch of its tag over `n` frames (R252, R230). -/
def execUnitPhase (n : Word) (s : State) : Out := finishOp (unitProcess .phase n.toNat s)
/-- Meaning of UNIT.CASCADE: the sequencer's dispatch of its tag over `n` frames (R253, R230). -/
def execUnitCascade (n : Word) (s : State) : Out := finishOp (unitProcess .cascade n.toNat s)
/-- Meaning of UNIT.GLISTEN: the sequencer's dispatch of its tag over `n` frames (R254, R230). -/
def execUnitGlisten (n : Word) (s : State) : Out := finishOp (unitProcess .glisten n.toNat s)
/-- Meaning of UNIT.SCORCH: the sequencer's dispatch of its tag over `n` frames (R265, R230). -/
def execUnitScorch (n : Word) (s : State) : Out := finishOp (unitProcess .scorch n.toNat s)
/-- Meaning of UNIT.SNARL: the sequencer's dispatch of its tag over `n` frames (R266, R230). -/
def execUnitSnarl (n : Word) (s : State) : Out := finishOp (unitProcess .snarl n.toNat s)
/-- Meaning of UNIT.SHRED: the sequencer's dispatch of its tag over `n` frames (R267, R230). -/
def execUnitShred (n : Word) (s : State) : Out := finishOp (unitProcess .shred n.toNat s)
/-- Meaning of UNIT.GRIND: the sequencer's dispatch of its tag over `n` frames (R268, R230). -/
def execUnitGrind (n : Word) (s : State) : Out := finishOp (unitProcess .grind n.toNat s)
/-- Meaning of UNIT.RUST: the sequencer's dispatch of its tag over `n` frames (R269, R230). -/
def execUnitRust (n : Word) (s : State) : Out := finishOp (unitProcess .rust n.toNat s)

/-- Meaning of UNIT.PROCESS (R230). -/
def execUnitProcess (u : UnitId) (n : Word) (s : State) : Out := finishOp (unitProcess u n.toNat s)

/-- Meaning of UNIT.SETMIX (R231): SV.SETTARGET of the unit's mix. -/
def execUnitSetmix (u : UnitId) (v : F32) (s : State) : Out :=
  .next (s.setSmoother (.mix u) (valueOf ((s.smoother (.mix u)).setTarget v)))

end Sys2Proof.Machine
end

