-- ==== Sys2Proof/Machine/Sequences.lean ====
section
/-! DEFINITION. The internal sequences the commands share (40_host_commands.md R142 to R144): the latch APPLY_PARAMS,
RESET_STATE and SIZE, the units' parts of the last two (45_units_cathode.md R232), and their meanings. -/

namespace Sys2Proof.Machine

open Sys2Proof

/-! ## APPLY_PARAMS (R142) -/

/-- SV.SETTARGET on an instance of the state. -/
def retarget (v : SmootherId) (t : F32) (s : State) : Calc State := do
  let x ← (s.smoother v).setTarget t
  pure (s.setSmoother v x)

/-- UNIT.SETMIX of each listed unit with the value of its holder (R142, R231). -/
def retargetMixes (h : Holders) : List UnitId → State → Calc State
  | [], s => pure s
  | u :: us, s => do
    let s1 ← retarget (.mix u) (h.get (.mix u)) s
    retargetMixes h us s1

/-- APPLY_PARAMS, the latch (R142): the holders become smoother targets and the family. -/
def applyParams (s : State) : Calc State := do
  let h := s.holders
  let s1 ← retarget .drive h.drive s
  let s2 ← retarget .tone h.tone s1
  let s3 ← retarget .out (← db2lin h.output) s2
  retargetMixes h allUnits { s3 with family := familyOf h.preampType }

/-- The latched `bypass` value (R142). -/
def latchedBypass (s : State) : Bool := s.holders.bypass != 0

/-! ## RESET_STATE (R143) -/

/-- The preamp's part of RESET_STATE (48_preamp.md R282): coefficients are kept. -/
def Preamp.resetState (p : Preamp) : Preamp :=
  { drive := p.drive.snap, tone := p.tone.snap, out := p.out.snap, shelfL := p.shelfL.reset,
    shelfR := p.shelfR.reset, dcL := p.dcL.reset, dcR := p.dcR.reset }

/-- The fifteen units' part of RESET_STATE (R143, R232). -/
def Units.resetState (u : Units) : Units :=
  { ember := { u.ember with mix := u.ember.mix.snap, prevL := 0, prevR := 0 },
    velvet := { u.velvet with mix := u.velvet.mix.snap, fL := u.velvet.fL.reset, fR := u.velvet.fR.reset },
    drift := { u.drift with mix := u.drift.mix.snap, d := u.drift.d.clear, p := 0 },
    echo := { u.echo with mix := u.echo.mix.snap, d := u.echo.d.clear, p := 0, fL := u.echo.fL.reset, fR := u.echo.fR.reset },
    haze := { u.haze with mix := u.haze.mix.snap, combA := u.haze.combA.clear, combB := u.haze.combB.clear, fL := u.haze.fL.reset, fR := u.haze.fR.reset },
    fracture := { u.fracture with mix := u.fracture.mix.snap },
    prism := { u.prism with mix := u.prism.mix.snap, zL := 0, zR := 0 },
    phase := { u.phase with mix := u.phase.mix.snap, d := u.phase.d.clear, p := 0 },
    cascade := { u.cascade with mix := u.cascade.mix.snap, d := u.cascade.d.clear },
    glisten := { u.glisten with mix := u.glisten.mix.snap, main := u.glisten.main.clear, shim := u.glisten.shim.clear, shimR := 0, fL := u.glisten.fL.reset, fR := u.glisten.fR.reset },
    scorch := { u.scorch with mix := u.scorch.mix.snap },
    snarl := { u.snarl with mix := u.snarl.mix.snap, fL := u.snarl.fL.reset, fR := u.snarl.fR.reset },
    shred := { u.shred with mix := u.shred.mix.snap, p := 0 },
    grind := { u.grind with mix := u.grind.mix.snap, d := u.grind.d.clear, heldL := 0, heldR := 0, cnt := 0 },
    rust := { u.rust with mix := u.rust.mix.snap, combA := u.rust.combA.clear, combB := u.rust.combB.clear, env := 0 } }

/-- RESET_STATE (R143). -/
def resetState (s : State) : State :=
  { s with pre := s.pre.resetState, units := s.units.resetState, meters := { inL := 0, inR := 0, outL := 0, outR := 0 } }

/-! ## SIZE (R144) -/

/-- The tap length `floor_int(t * sr)` (43_delay_line.md R198). -/
def tapLength (t sr : F32) : Calc Nat := do
  let p ← cMul t sr
  pure (floorNat p)

/-- The same coefficients for the two filters of a pair (R144). -/
def setcPair (fL fR : Biquad) (k : FilterKind) (fc q sr : F32) : Calc (Biquad × Biquad) := do
  let l ← fL.setc k fc q sr k0
  let r ← fR.setc k fc q sr k0
  pure (l, r)

/-- The preamp's part of SIZE (R144, 48_preamp.md R282). -/
def Preamp.sizeState (p : Preamp) (sr : F32) : Calc Preamp := do
  let n ← rampSteps tRampPre sr
  let (dcL, dcR) ← setcPair p.dcL p.dcR .hp k10 Config.qDc sr
  pure { p with drive := { p.drive with numSteps := n }, tone := { p.tone with numSteps := n },
                out := { p.out with numSteps := n }, dcL := dcL, dcR := dcR }

/-- Drift's part of SIZE, with the ramp length `n` of the mixes (R144; 10_state.md R38). -/
def Drift.sizeState (u : Drift) (n : Nat) (sr : F32) : Calc Drift := do
  let d ← u.d.size k0_027 Config.guard sr
  pure { u with mix := { u.mix with numSteps := n }, d := d }

/-- Echo's part of SIZE, with the ramp length `n` of the mixes (R144; 10_state.md R38). -/
def Echo.sizeState (u : Echo) (n : Nat) (sr : F32) : Calc Echo := do
  let d ← u.d.size k0_35 (15 + Config.guard) sr
  let (fL, fR) ← setcPair u.fL u.fR .lp k4000 Config.qFixed sr
  pure { u with mix := { u.mix with numSteps := n }, d := d, fL := fL, fR := fR }

/-- Haze's part of SIZE, with the ramp length `n` of the mixes (R144; 10_state.md R38). -/
def Haze.sizeState (u : Haze) (n : Nat) (sr : F32) : Calc Haze := do
  let combA ← u.combA.size k0_037 0 sr
  let combB ← u.combB.size k0_053 0 sr
  let lagA ← tapLength k0_037 sr
  let lagB ← tapLength k0_053 sr
  let (fL, fR) ← setcPair u.fL u.fR .lp k2000 Config.qFixed sr
  pure { u with mix := { u.mix with numSteps := n }, combA := combA, combB := combB, lagA := lagA, lagB := lagB, fL := fL, fR := fR }

/-- Phase's part of SIZE, with the ramp length `n` of the mixes (R144; 10_state.md R38). -/
def Phase.sizeState (u : Phase) (n : Nat) (sr : F32) : Calc Phase := do
  let d ← u.d.size k0_008 Config.guard sr
  pure { u with mix := { u.mix with numSteps := n }, d := d }

/-- Cascade's part of SIZE, with the ramp length `n` of the mixes (R144; 10_state.md R38). -/
def Cascade.sizeState (u : Cascade) (n : Nat) (sr : F32) : Calc Cascade := do
  let d ← u.d.size k0_5 0 sr
  let lag0 ← tapLength k0_125 sr
  let lag1 ← tapLength k0_25 sr
  let lag2 ← tapLength k0_375 sr
  let lag3 ← tapLength k0_5 sr
  pure { u with mix := { u.mix with numSteps := n }, d := d, lag0 := lag0, lag1 := lag1, lag2 := lag2, lag3 := lag3 }

/-- Glisten's part of SIZE, with the ramp length `n` of the mixes (R144; 10_state.md R38). -/
def Glisten.sizeState (u : Glisten) (n : Nat) (sr : F32) : Calc Glisten := do
  let main ← u.main.size k0_08 0 sr
  let shim ← u.shim.size k0_04 0 sr
  let lagM ← tapLength k0_08 sr
  let (fL, fR) ← setcPair u.fL u.fR .hp k2000 Config.qFixed sr
  pure { u with mix := { u.mix with numSteps := n }, main := main, shim := shim, lagM := lagM, fL := fL, fR := fR }

/-- Grind's part of SIZE, with the ramp length `n` of the mixes (R144; 10_state.md R38). -/
def Grind.sizeState (u : Grind) (n : Nat) (sr : F32) : Calc Grind := do
  let d ← u.d.size k0_3 0 sr
  let lag ← tapLength k0_3 sr
  pure { u with mix := { u.mix with numSteps := n }, d := d, lag := lag }

/-- Rust's part of SIZE, with the ramp length `n` of the mixes (R144; 10_state.md R38). -/
def Rust.sizeState (u : Rust) (n : Nat) (sr : F32) : Calc Rust := do
  let combA ← u.combA.size k0_023 0 sr
  let combB ← u.combB.size k0_047 0 sr
  let lagA ← tapLength k0_023 sr
  let lagB ← tapLength k0_047 sr
  let ca ← envCoef k0_001 sr
  let cr ← envCoef k0_05 sr
  pure { u with mix := { u.mix with numSteps := n }, combA := combA, combB := combB, lagA := lagA, lagB := lagB, ca := ca, cr := cr }

/-- The fifteen units' part of SIZE (R144, R232). -/
def Units.sizeState (u : Units) (sr : F32) : Calc Units := do
  let n ← rampSteps tRampMix sr
  let drift ← u.drift.sizeState n sr
  let echo ← u.echo.sizeState n sr
  let haze ← u.haze.sizeState n sr
  let phase ← u.phase.sizeState n sr
  let cascade ← u.cascade.sizeState n sr
  let glisten ← u.glisten.sizeState n sr
  let grind ← u.grind.sizeState n sr
  let rust ← u.rust.sizeState n sr
  pure
    { ember := { u.ember with mix := { u.ember.mix with numSteps := n } },
      velvet := { u.velvet with mix := { u.velvet.mix with numSteps := n } },
      drift := drift,
      echo := echo,
      haze := haze,
      fracture := { u.fracture with mix := { u.fracture.mix with numSteps := n } },
      prism := { u.prism with mix := { u.prism.mix with numSteps := n } },
      phase := phase,
      cascade := cascade,
      glisten := glisten,
      scorch := { u.scorch with mix := { u.scorch.mix with numSteps := n } },
      snarl := { u.snarl with mix := { u.snarl.mix with numSteps := n } },
      shred := { u.shred with mix := { u.shred.mix with numSteps := n } },
      grind := grind,
      rust := rust }

/-- SIZE (R144): every prepare-time constant of 10_state.md R43 that depends on `sr`. -/
def sizeState (s : State) : Calc State := do
  let p ← s.pre.sizeState s.sr
  let u ← s.units.sizeState s.sr
  pure { s with pre := p, units := u }

/-! ## Meanings -/

/-- Meaning of APPLY_PARAMS (R142). -/
def execApplyParams (s : State) : Out := .next (valueOf (applyParams s))

/-- Meaning of RESET_STATE (R143). -/
def execResetState (s : State) : Out := .next (resetState s)

/-- Meaning of SIZE (R144). -/
def execSize (s : State) : Out := .next (valueOf (sizeState s))

/-- Meaning of UNIT.PREPARE (R232): the units' part of SIZE, after which their delay lines, histories, phases and
counters are zero and their mixes idle (log 19). -/
def execUnitPrepare (s : State) : Out :=
  .next { s with units := (valueOf (s.units.sizeState s.sr)).resetState }

/-- Meaning of UNIT.RESET (R232): the units' part of RESET_STATE. -/
def execUnitReset (s : State) : Out := .next { s with units := s.units.resetState }

end Sys2Proof.Machine
end

