-- ==== Sys2Proof/Machine/Commands.lean ====
section
/-! DEFINITION. The meanings of the twelve host commands (40_host_commands.md). Each makes the checks of
30_encoding.md R107 that decoding left open, in that order, before any state changes (R145). -/

namespace Sys2Proof.Machine

open Sys2Proof

/-- Meaning of NOP (R130). -/
def execNop (s : State) : Out := onPort .nop s (.next (s.respond 0))

/-- Meaning of SETCFG (R131). -/
def execSetcfg (sel : BitVec 8) (data : Word) (s : State) : Out :=
  onPort .setcfg s <|
    match cfgOfSel sel with
    | none => .next (raise .sel s)
    | some r => .next ((s.setCfg r data).respond 0)

/-- Meaning of GETCFG (R132). -/
def execGetcfg (sel : BitVec 8) (s : State) : Out :=
  onPort .getcfg s <|
    match cfgOfSel sel with
    | none => .next (raise .sel s)
    | some r => .next (s.respond (s.cfgReg r))

/-- The effective sample rate PREPARE derives (10_state.md R32, R133). -/
def effectiveRate (w : Word) : F32 :=
  dClamp (if dLt k0 w then w else Config.fsDefault) Config.fsMin Config.fsMax

/-- The effective block length PREPARE derives, an unsigned clamp (10_state.md R32, R133). -/
def effectiveBlock (w : Word) : Nat :=
  if w.toNat < 1 then 1 else if Config.maxblkMax < w.toNat then Config.maxblkMax else w.toNat

/-- PREPARE's variant of the latch: the targets are written directly, so that no ramp starts (R133). -/
def writeTargets (s : State) : Calc State := do
  let h := s.holders
  let g ← db2lin h.output
  let u := s.units
  pure { s with
    family := familyOf h.preampType
    pre := { s.pre with drive := { s.pre.drive with target := h.drive },
                        tone := { s.pre.tone with target := h.tone },
                        out := { s.pre.out with target := g } }
    units :=
      { ember := { u.ember with mix := { u.ember.mix with target := h.cathEmber } },
        velvet := { u.velvet with mix := { u.velvet.mix with target := h.cathVelvet } },
        drift := { u.drift with mix := { u.drift.mix with target := h.cathDrift } },
        echo := { u.echo with mix := { u.echo.mix with target := h.cathEcho } },
        haze := { u.haze with mix := { u.haze.mix with target := h.cathHaze } },
        fracture := { u.fracture with mix := { u.fracture.mix with target := h.filFracture } },
        prism := { u.prism with mix := { u.prism.mix with target := h.filPrism } },
        phase := { u.phase with mix := { u.phase.mix with target := h.filPhase } },
        cascade := { u.cascade with mix := { u.cascade.mix with target := h.filCascade } },
        glisten := { u.glisten with mix := { u.glisten.mix with target := h.filGlisten } },
        scorch := { u.scorch with mix := { u.scorch.mix with target := h.steelScorch } },
        snarl := { u.snarl with mix := { u.snarl.mix with target := h.steelSnarl } },
        shred := { u.shred with mix := { u.shred.mix with target := h.steelShred } },
        grind := { u.grind with mix := { u.grind.mix with target := h.steelGrind } },
        rust := { u.rust with mix := { u.rust.mix with target := h.steelRust } } } }

/-- The coefficient computations at the end of PREPARE: the tone shelf, Velvet's and Snarl's block start (R133). -/
def prepareCoefs (s : State) : Calc State := do
  let p ← s.pre.setShelf s.sr s.pre.tone.current
  let v ← s.units.velvet.blockStart s.sr
  let n ← s.units.snarl.blockStart s.sr
  pure { s with pre := p, units := { s.units with velvet := v, snarl := n } }

/-- What PREPARE does to the state before its response (R133). -/
def prepare (s : State) : State :=
  let s1 := { s with sr := effectiveRate s.cfg.sampleRate, maxblk := effectiveBlock s.cfg.maxBlock }
  let s2 := valueOf (sizeState s1)
  let s3 := resetState (valueOf (writeTargets s2))
  let s4 := valueOf (prepareCoefs s3)
  { s4 with bypassPrev := latchedBypass s, status := { s4.status with prepared := true } }

/-- Meaning of PREPARE (R133). -/
def execPrepare (s : State) : Out := onPort .prepare s (.next ((prepare s).respond 0))

/-- Meaning of RESET (R134). -/
def execReset (s : State) : Out :=
  onPort .reset s <|
    if s.status.prepared then .next ((resetState s).respond 0) else .next (raise .notPrep s)

/-- The latch of PROCESS and, on a bypass transition, RESET_STATE (R135, 49_chain_and_meter.md R295). -/
def processLatch (s : State) : Calc State := do
  let s1 ← applyParams s
  pure (if latchedBypass s != s1.bypassPrev then { resetState s1 with bypassPrev := latchedBypass s } else s1)

/-- PROCESS after its checks (R135): the latch, then nothing while bypassed, else the block; then the response. -/
def processBlock (n : Nat) (s : State) : Calc State := do
  let s1 ← processLatch s
  let s2 ← if latchedBypass s then pure s1 else processFrames n s1
  pure (s2.respond 0)

/-- Meaning of PROCESS (R135). -/
def execProcess (n : Word) (s : State) : Out :=
  onPort .process s <|
    if !s.status.prepared then .next (raise .notPrep s)
    else if s.maxblk < n.toNat then .next (raise .len s)
    else finishBlock (processBlock n.toNat s)

/-- Meaning of WRBUF (R140). -/
def execWrbuf (sel : BitVec 8) (idx : BitVec 16) (data : Word) (s : State) : Out :=
  onPort .wrbuf s <|
    match channelOfSel sel with
    | none => .next (raise .sel s)
    | some ch =>
      if Config.maxblkMax ≤ idx.toNat then .next (raise .index s)
      else .next (State.respond { s with buf := s.buf.set ch idx.toNat data } 0)

/-- Meaning of RDBUF (R141): a word that nothing has written holds no value, and its read is refused (U4; log 13). -/
def execRdbuf (sel : BitVec 8) (idx : BitVec 16) (s : State) : Out :=
  onPort .rdbuf s <|
    match channelOfSel sel with
    | none => .next (raise .sel s)
    | some ch =>
      if Config.maxblkMax ≤ idx.toNat then .next (raise .index s)
      else
        match s.buf.get? ch idx.toNat with
        | none => .refused .unwrittenWord
        | some w => .next (s.respond w)

/-- Meaning of GETSTATUS (R139). -/
def execGetstatus (s : State) : Out := onPort .getstatus s (.next (s.respond s.statusWord))

/-- Meaning of SETPARAM (R136): only the holder changes. -/
def execSetparam (sel : BitVec 8) (data : Word) (s : State) : Out :=
  onPort .setparam s <|
    match holderOfSel sel with
    | none => .next (raise .sel s)
    | some h => .next ((s.setHolder h (legalise h data)).respond 0)

/-- Meaning of GETPARAM (R137). -/
def execGetparam (sel : BitVec 8) (s : State) : Out :=
  onPort .getparam s <|
    match holderOfSel sel with
    | none => .next (raise .sel s)
    | some h => .next (s.respond (s.holder h))

/-- Meaning of GETMETER (R138). -/
def execGetmeter (sel : BitVec 8) (s : State) : Out :=
  onPort .getmeter s <|
    match meterOfSel sel with
    | none => .next (raise .sel s)
    | some k => .next (s.respond (s.meter k))

end Sys2Proof.Machine
end

