-- ==== Sys2Proof/Machine/Dispatch.lean ====
section
/-! DEFINITION. The dispatch: one arm per instruction, each one direct call of its meaning. -/

namespace Sys2Proof.Machine

open Sys2Proof

def exec (i : Instr) (s : State) : Host.Outcome State Fault Refusal :=
  match i with
  | .nop => Sys2Proof.Machine.execNop s
  | .setcfg sel data => Sys2Proof.Machine.execSetcfg sel data s
  | .getcfg sel => Sys2Proof.Machine.execGetcfg sel s
  | .prepare => Sys2Proof.Machine.execPrepare s
  | .reset => Sys2Proof.Machine.execReset s
  | .process n => Sys2Proof.Machine.execProcess n s
  | .wrbuf sel idx data => Sys2Proof.Machine.execWrbuf sel idx data s
  | .rdbuf sel idx => Sys2Proof.Machine.execRdbuf sel idx s
  | .getstatus => Sys2Proof.Machine.execGetstatus s
  | .setparam sel data => Sys2Proof.Machine.execSetparam sel data s
  | .getparam sel => Sys2Proof.Machine.execGetparam sel s
  | .getmeter sel => Sys2Proof.Machine.execGetmeter sel s
  | .unitEmber n => Sys2Proof.Machine.execUnitEmber n s
  | .unitVelvet n => Sys2Proof.Machine.execUnitVelvet n s
  | .unitDrift n => Sys2Proof.Machine.execUnitDrift n s
  | .unitEcho n => Sys2Proof.Machine.execUnitEcho n s
  | .unitHaze n => Sys2Proof.Machine.execUnitHaze n s
  | .unitFracture n => Sys2Proof.Machine.execUnitFracture n s
  | .unitPrism n => Sys2Proof.Machine.execUnitPrism n s
  | .unitPhase n => Sys2Proof.Machine.execUnitPhase n s
  | .unitCascade n => Sys2Proof.Machine.execUnitCascade n s
  | .unitGlisten n => Sys2Proof.Machine.execUnitGlisten n s
  | .unitScorch n => Sys2Proof.Machine.execUnitScorch n s
  | .unitSnarl n => Sys2Proof.Machine.execUnitSnarl n s
  | .unitShred n => Sys2Proof.Machine.execUnitShred n s
  | .unitGrind n => Sys2Proof.Machine.execUnitGrind n s
  | .unitRust n => Sys2Proof.Machine.execUnitRust n s
  | .bqSetcLp f fc q sr => Sys2Proof.Machine.execBqSetcLp f fc q sr s
  | .bqSetcHp f fc q sr => Sys2Proof.Machine.execBqSetcHp f fc q sr s
  | .bqSetcBp f fc q sr => Sys2Proof.Machine.execBqSetcBp f fc q sr s
  | .bqSetcLs f fc q sr g => Sys2Proof.Machine.execBqSetcLs f fc q sr g s
  | .svReset v sr t => Sys2Proof.Machine.execSvReset v sr t s
  | .svSnap v => Sys2Proof.Machine.execSvSnap v s
  | .svSettarget v t => Sys2Proof.Machine.execSvSettarget v t s
  | .svNext v => Sys2Proof.Machine.execSvNext v s
  | .svCurrent v => Sys2Proof.Machine.execSvCurrent v s
  | .bqProcess f x => Sys2Proof.Machine.execBqProcess f x s
  | .bqReset f => Sys2Proof.Machine.execBqReset f s
  | .bqSetc f k fc q sr g => Sys2Proof.Machine.execBqSetc f k fc q sr g s
  | .dlSize d tmax guard sr => Sys2Proof.Machine.execDlSize d tmax guard sr s
  | .dlClear d => Sys2Proof.Machine.execDlClear d s
  | .dlWrite d vL vR => Sys2Proof.Machine.execDlWrite d vL vR s
  | .dlReadi d lag => Sys2Proof.Machine.execDlReadi d lag s
  | .dlReadf d ch t => Sys2Proof.Machine.execDlReadf d ch t s
  | .dlAdvance d => Sys2Proof.Machine.execDlAdvance d s
  | .hardclip x => Sys2Proof.Machine.execHardclip x s
  | .xfmrSat x => Sys2Proof.Machine.execXfmrSat x s
  | .softclip x => Sys2Proof.Machine.execSoftclip x s
  | .emberShape x => Sys2Proof.Machine.execEmberShape x s
  | .quant x nb => Sys2Proof.Machine.execQuant x nb s
  | .lfoAdvance p rate sr => Sys2Proof.Machine.execLfoAdvance p rate sr s
  | .lfoSine p => Sys2Proof.Machine.execLfoSine p s
  | .lfoTri p => Sys2Proof.Machine.execLfoTri p s
  | .envCoef t sr => Sys2Proof.Machine.execEnvCoef t sr s
  | .envStep env lvl ca cr => Sys2Proof.Machine.execEnvStep env lvl ca cr s
  | .gate env => Sys2Proof.Machine.execGate env s
  | .meterUpdate k pk => Sys2Proof.Machine.execMeterUpdate k pk s
  | .db2lin o => Sys2Proof.Machine.execDb2lin o s
  | .rectify x => Sys2Proof.Machine.execRectify x s
  | .xfade dry wet m => Sys2Proof.Machine.execXfade dry wet m s
  | .unitProcess u n => Sys2Proof.Machine.execUnitProcess u n s
  | .unitSetmix u v => Sys2Proof.Machine.execUnitSetmix u v s
  | .unitPrepare => Sys2Proof.Machine.execUnitPrepare s
  | .unitReset => Sys2Proof.Machine.execUnitReset s
  | .preamp n => Sys2Proof.Machine.execPreamp n s
  | .preampSetshelf tn => Sys2Proof.Machine.execPreampSetshelf tn s
  | .applyParams => Sys2Proof.Machine.execApplyParams s
  | .resetState => Sys2Proof.Machine.execResetState s
  | .size => Sys2Proof.Machine.execSize s

end Sys2Proof.Machine
end

