-- ==== Sys2Proof/Machine/Serve.lean ====
section
/-! DEFINITION. How the block comes to its next instruction: the arbiter's choice of a port (20_memory.md R78), the
checks 1 and 3 of 30_encoding.md R107 around the meanings, and the sequencer's code slot (log 4). -/

namespace Sys2Proof.Machine

open Sys2Proof

/-- The ports with a command waiting. -/
def waitingPorts (s : State) : List Port :=
  [Port.audio, .control, .monitor].filter fun p => (s.port p).commands != []

/-- The port served next: any of the waiting ones (R78, U2; the free arbiter, log 3). -/
def choosePort (s : State) : Option Port :=
  match waitingPorts s with
  | [] => none
  | [p] => some p
  | ps => ps[Config.arbiter s.serial % ps.length]?

/-- The oldest command of a port, and the state in which it executes (R78: each port's own order is kept). -/
def takeFrom (s : State) (p : Port) : Option (CmdWord × State) :=
  match (s.port p).commands with
  | [] => none
  | w :: ws => some (w, { s.setPort p { s.port p with commands := ws } with granted := p, serial := s.serial + 1 })

/-- The next command of the serial order; none while no port has one waiting. -/
def nextCommand (s : State) : Option (CmdWord × State) :=
  match choosePort s with
  | none => none
  | some p => takeFrom s p

/-- Execute one command word (30_encoding.md R107): reserved opcode, then port, then must-be-zero field, then the
checks of the command's own meaning. -/
def runCommand (w : CmdWord) (s : State) : Out :=
  match decodeCmd w with
  | .reservedOp => .next (raise .illegal s)
  | .badField op => onPort op s (.next (raise .illegal s))
  | .instr _ i => exec i s

/-- Execute one code of the sequencer's slot (log 4). -/
def runCode (c : SeqWord) (s : State) : Out :=
  match decodeSeq c with
  | none => .fault .reservedCode
  | some i => exec i s

/-- The port on which a word's opcode may be issued: control for SETPARAM, audio for every other (R103). -/
def portFor (w : CmdWord) : Port :=
  match opcodeOf (opField w) with
  | some .setparam => .control
  | _ => .audio

/-- No command waits on any port. -/
def State.quiet (s : State) : State :=
  { s with audio := { s.audio with commands := [] }, control := { s.control with commands := [] },
           monitor := { s.monitor with commands := [] } }

/-- The only thing waiting is one command word on one port. -/
def State.onlyCommand (s : State) (p : Port) (w : CmdWord) : State := (State.quiet { s with dispatch := [] }).issue p w

end Sys2Proof.Machine
end

