-- ==== Sys2Proof/Machine/Step.lean ====
section
/-! DEFINITION. One step of the block: one command, executed atomically (20_memory.md R78), or one code handed to the
sequencer (log 4); with nothing waiting the block idles (60_exceptions.md R317; log 2). -/

namespace Sys2Proof.Machine

open Sys2Proof

/-- One step. -/
def step (s : State) : Host.Outcome State Fault Refusal :=
  match s.dispatch with
  | c :: cs => runCode c { s with dispatch := cs }
  | [] =>
    match nextCommand s with
    | none => .next s
    | some (w, s1) => runCommand w s1

/-- The state with a table row's word where `step` fetches next: a one-byte code in the sequencer's slot, a command
word as the only command waiting, on a port that may issue it (log 4). -/
def State.withFetchWord (s : State) (nbits w : Nat) : State :=
  if nbits ≤ 8 then { s with dispatch := [BitVec.ofNat 144 (w % 2 ^ nbits)] }
  else s.onlyCommand (portFor (BitVec.ofNat 64 (w % 2 ^ nbits))) (BitVec.ofNat 64 (w % 2 ^ nbits))

end Sys2Proof.Machine
end

