-- ==== Sys2Proof/Safety.lean ====
section
/-! DEFINITION. The terms the claims are stated in: the tables of 30_encoding.md, the checks of R107 as one list, the
expressions of the rules as plain functions (no marks), what a block needs to run, and the invariants a safe run keeps. -/

namespace Sys2Proof.Safety

open Sys2Proof Sys2Proof.Machine

/-! ## The tables of 30_encoding.md -/

/-- Every opcode, in the order of R103. -/
def allOpcodes : List Opcode :=
  [.nop, .setcfg, .getcfg, .prepare, .reset, .process, .wrbuf, .rdbuf, .getstatus, .setparam, .getparam, .getmeter]

/-- Column `match` of R103. -/
def rowMatch : Opcode → CmdWord
  | .nop => 0x0000000000000000#64
  | .setcfg => 0x0100000000000000#64
  | .getcfg => 0x0200000000000000#64
  | .prepare => 0x0300000000000000#64
  | .reset => 0x0400000000000000#64
  | .process => 0x0500000000000000#64
  | .wrbuf => 0x0600000000000000#64
  | .rdbuf => 0x0700000000000000#64
  | .getstatus => 0x0800000000000000#64
  | .setparam => 0x1000000000000000#64
  | .getparam => 0x1100000000000000#64
  | .getmeter => 0x2000000000000000#64

/-- Column `mask` of R103. -/
def rowMask : Opcode → CmdWord
  | .nop => 0xFFFFFFFFFFFFFFFF#64
  | .setcfg => 0xFF00FFFF00000000#64
  | .getcfg => 0xFF00FFFFFFFFFFFF#64
  | .prepare => 0xFFFFFFFFFFFFFFFF#64
  | .reset => 0xFFFFFFFFFFFFFFFF#64
  | .process => 0xFFFFFFFF00000000#64
  | .wrbuf => 0xFF00000000000000#64
  | .rdbuf => 0xFF000000FFFFFFFF#64
  | .getstatus => 0xFFFFFFFFFFFFFFFF#64
  | .setparam => 0xFF00FFFF00000000#64
  | .getparam => 0xFF00FFFFFFFFFFFF#64
  | .getmeter => 0xFF00FFFFFFFFFFFF#64

/-- The ports a command may be issued on (60_exceptions.md R312). -/
def rights : Opcode → List Port
  | .nop => [.audio, .control, .monitor]
  | .getstatus => [.audio, .control, .monitor]
  | .setcfg => [.audio]
  | .getcfg => [.audio]
  | .prepare => [.audio]
  | .reset => [.audio]
  | .process => [.audio]
  | .wrbuf => [.audio]
  | .rdbuf => [.audio]
  | .setparam => [.control]
  | .getparam => [.audio, .control]
  | .getmeter => [.audio, .monitor]

/-- The twenty `sel` values of the holders (10_state.md R33), each with its holder. -/
def holderTable : List (BitVec 8 × HolderId) :=
  [(0x00#8, .drive), (0x01#8, .tone), (0x02#8, .output), (0x03#8, .bypass), (0x04#8, .preampType),
    (0x10#8, .mix .ember), (0x11#8, .mix .velvet), (0x12#8, .mix .drift), (0x13#8, .mix .echo), (0x14#8, .mix .haze),
    (0x20#8, .mix .fracture), (0x21#8, .mix .prism), (0x22#8, .mix .phase), (0x23#8, .mix .cascade),
    (0x24#8, .mix .glisten), (0x30#8, .mix .scorch), (0x31#8, .mix .snarl), (0x32#8, .mix .shred),
    (0x33#8, .mix .grind), (0x34#8, .mix .rust)]

/-- The `sel` values of the configuration registers (10_state.md R31). -/
def cfgTable : List (BitVec 8 × CfgId) := [(0#8, .sampleRate), (1#8, .maxBlock), (2#8, .numCh)]

/-- The `sel` values of the meters (10_state.md R41). -/
def meterTable : List (BitVec 8 × MeterId) := [(0#8, .inL), (1#8, .inR), (2#8, .outL), (3#8, .outR)]

/-- The `sel` values of the buffer channels (30_encoding.md R104). -/
def channelTable : List (BitVec 8 × Channel) := [(0#8, .left), (1#8, .right)]

/-- The `sel` values R104 allows an opcode that has a `sel`. -/
def selLegal : Opcode → BitVec 8 → Bool
  | .setcfg, sel => decide (sel.toNat ≤ 2)
  | .getcfg, sel => decide (sel.toNat ≤ 2)
  | .setparam, sel => (holderTable.map (·.1)).contains sel
  | .getparam, sel => (holderTable.map (·.1)).contains sel
  | .getmeter, sel => decide (sel.toNat ≤ 3)
  | .wrbuf, sel => decide (sel.toNat ≤ 1)
  | .rdbuf, sel => decide (sel.toNat ≤ 1)
  | _, _ => true

/-- Checks 2 to 7 of R107, in that order, each with the refusal it raises and whether it fails. -/
def checks (op : Opcode) (w : CmdWord) (s : State) : List (Err × Bool) :=
  [(.port, !(rights op).contains s.granted),
   (.illegal, (w &&& rowMask op) != rowMatch op),
   (.sel, !selLegal op (selField w)),
   (.index, (op == .wrbuf || op == .rdbuf) && decide (8192 ≤ (idxField w).toNat)),
   (.notPrep, (op == .reset || op == .process) && !s.status.prepared),
   (.len, op == .process && decide (s.maxblk < (dataField w).toNat))]

/-- The opcode whose row has the `op` byte of the word (R103). -/
def rowOf (w : CmdWord) : Option Opcode := allOpcodes.find? fun op => opField (rowMatch op) == opField w

/-- The refusal of a command word: that of the first check of R107 that fails. -/
def firstError (w : CmdWord) (s : State) : Option Err :=
  match rowOf w with
  | none => some .illegal
  | some op => ((checks op w s).find? (·.2)).map (·.1)

/-! ## The expressions of the rules

Each is the pseudocode of its rule over plain binary32 operations. -/

/-- SV.NEXT (41_smoother.md R163): the returned value and the smoother after it. -/
def nextRule (v : Smoother) : F32 × Smoother :=
  if v.stepsRemaining = 0 then (v.current, v)
  else
    let k := v.stepsRemaining - 1
    let c := if k = 0 then v.target else fAdd v.current v.increment
    (c, { v with stepsRemaining := k, current := c })

/-- The smoother after `k` calls of SV.NEXT (R163). -/
def advanced : Nat → Smoother → Smoother
  | 0, v => v
  | k + 1, v => (nextRule (advanced k v)).2

/-- SV.SETTARGET (R162). -/
def settargetRule (v : Smoother) (t : F32) : Smoother :=
  if dEq t v.target then v
  else if v.numSteps = 0 then { v with target := t, current := t, stepsRemaining := 0, increment := 0 }
  else
    { v with target := t, increment := fDiv (fSub t v.current) (fOfNat v.numSteps), stepsRemaining := v.numSteps }

/-- SV.SNAP (R161). -/
def snapRule (v : Smoother) : Smoother := { v with current := v.target, stepsRemaining := 0, increment := 0 }

/-- BQ.PROCESS (42_biquad.md R170): the output. -/
def bqOut (f : Biquad) (x : F32) : F32 :=
  fSub (fSub (fAdd (fAdd (fMul f.b0 x) (fMul f.b1 f.x1)) (fMul f.b2 f.x2)) (fMul f.a1 f.y1)) (fMul f.a2 f.y2)

/-- BQ.PROCESS (R170): the filter after it. -/
def bqNext (f : Biquad) (x : F32) : Biquad := { f with x1 := x, x2 := f.x1, y1 := bqOut f x, y2 := f.y1 }

/-- The five coefficients of a filter. -/
structure Coefs where
  b0 : F32
  b1 : F32
  b2 : F32
  a1 : F32
  a2 : F32
  deriving DecidableEq, Repr

/-- The coefficients a filter holds. -/
def coefsOf (f : Biquad) : Coefs := { b0 := f.b0, b1 := f.b1, b2 := f.b2, a1 := f.a1, a2 := f.a2 }

/-- The filter with the coefficients replaced. -/
def withCoefs (f : Biquad) (c : Coefs) : Biquad := { f with b0 := c.b0, b1 := c.b1, b2 := c.b2, a1 := c.a1, a2 := c.a2 }

/-- The five divisions of R172 by `A0`. -/
def normal (b0 b1 b2 a0 a1 a2 : F32) : Coefs :=
  { b0 := fDiv b0 a0, b1 := fDiv b1 a0, b2 := fDiv b2 a0, a1 := fDiv a1 a0, a2 := fDiv a2 a0 }

/-- The coefficients of R174 to R177 for the cosine `cs` and sine `sn` of the angle. -/
def cookbook (k : FilterKind) (cs sn q g : F32) : Coefs :=
  let alpha := fDiv sn (fMul k2 q)
  match k with
  | .lp =>
    let t := fSub k1 cs
    normal (fMul t k0_5) t (fMul t k0_5) (fAdd k1 alpha) (fMul kn2 cs) (fSub k1 alpha)
  | .hp =>
    let t := fAdd k1 cs
    normal (fMul t k0_5) (fNeg t) (fMul t k0_5) (fAdd k1 alpha) (fMul kn2 cs) (fSub k1 alpha)
  | .bp => normal alpha 0 (fNeg alpha) (fAdd k1 alpha) (fMul kn2 cs) (fSub k1 alpha)
  | .ls =>
    let a := fSqrt g
    let ap1 := fAdd a k1
    let am1 := fSub a k1
    let beta := fDiv (fMul sn (fSqrt a)) q
    let amc := fMul am1 cs
    let apc := fMul ap1 cs
    normal (fMul a (fAdd (fSub ap1 amc) beta)) (fMul (fMul k2 a) (fSub am1 apc)) (fMul a (fSub (fSub ap1 amc) beta))
      (fAdd (fAdd ap1 amc) beta) (fMul kn2 (fAdd am1 apc)) (fSub (fAdd ap1 amc) beta)

/-- The angle of R172, the frequency limited as R179 says. -/
def angleRule (fc sr : F32) : F32 := fDiv (fMul twoPi (dClamp fc k1 (fMul k0_49 sr))) sr

/-- BQ.SETC (R172): the coefficients. -/
def coefRule (k : FilterKind) (fc q sr g : F32) : Coefs :=
  cookbook k (cosF (angleRule fc sr)) (sinF (angleRule fc sr)) q g

/-- The word an integer lag reads (43_delay_line.md R193). -/
def tapRule (d : DelayLine) (ch : Channel) (lag : Nat) : F32 := d.get ch (((d.writePos : Int) - lag) % d.cap).toNat

/-- DL.READF (R194). -/
def fracRule (d : DelayLine) (ch : Channel) (t : F32) : F32 :=
  let rp0 := fSub (fOfNat d.writePos) t
  let rp := if dLt rp0 k0 then fAdd rp0 (fOfNat d.cap) else rp0
  let frac := fSub rp (fOfInt (floorInt rp))
  let i0 := (floorInt rp % d.cap).toNat
  fAdd (fMul (d.get ch i0) (fSub k1 frac)) (fMul (d.get ch ((i0 + 1) % d.cap)) frac)

/-- A write and an advance (R192, R195). -/
def pushRule (d : DelayLine) (vL vR : F32) : DelayLine :=
  { bufL := d.bufL.dlySet d.writePos vL, bufR := d.bufR.dlySet d.writePos vR, writePos := (d.writePos + 1) % d.cap,
    cap := d.cap }

/-- HARDCLIP (44_primitives.md R205). -/
def clipRule (x : F32) : F32 := if dLt x kn1 then kn1 else if dLt k1 x then k1 else daz x

/-- XFMR_SAT (R206). -/
def xfmrRule (x : F32) : F32 :=
  if dLt k0_7 (dAbs x) then dCopysign (dMin (fAdd k0_7 (fMul (fSub (dAbs x) k0_7) k0_5)) k1) x else daz x

/-- SOFTCLIP (R207). -/
def softRule (x : F32) : F32 := if dLt k0 x then tanhF (fMul x k0_9) else tanhF (fMul x k1_1)

/-- EMBER_SHAPE (R208). -/
def emberRule (x : F32) : F32 := if dLt k0 x then fMul (tanhF (fMul x k0_8)) k1_1 else tanhF (fMul x k1_2)

/-- QUANT (R209). -/
def quantRule (x nb : F32) : F32 :=
  let lv := exp2F (fSub nb k1)
  fDiv (roundHaz (fMul x lv)) lv

/-- LFO.ADVANCE (R210). -/
def lfoRule (p rate sr : F32) : F32 :=
  let q := fAdd p (fDiv rate sr)
  if dGe q k1 then fSub q k1 else q

/-- LFO.SINE (R211). -/
def sineRule (p : F32) : F32 := sinF (fMul twoPi p)

/-- LFO.TRI (R212). -/
def triRule (p : F32) : F32 := if dLt p k0_5 then fMul k2 p else fSub k2 (fMul k2 p)

/-- ENV.COEF (R213). -/
def envCoefRule (t sr : F32) : F32 := expF (fDiv kn1 (fMul t sr))

/-- ENV.STEP (R213). -/
def envRule (env lvl ca cr : F32) : F32 := fAdd lvl (fMul (if dLt env lvl then ca else cr) (fSub env lvl))

/-- GATE (R214). -/
def gateRule (env : F32) : F32 := if dGe env k0_05 then k1 else fDiv env k0_05

/-- METER.UPDATE (R215). -/
def meterRule (old pk : F32) : F32 := dMax pk (fMul old meterDecay)

/-- DB2LIN (R216). -/
def gainRule (o : F32) : F32 := pow10F (fDiv (fAdd kn12 (fMul o k18)) k20)

/-- XFADE (R218). -/
def xf (dry wet m : F32) : F32 := fAdd dry (fMul (fSub wet dry) m)

/-- The peak of one channel over the first `n` frames (40_host_commands.md R135). -/
def blockPeak (b : SampleBuffer) (ch : Channel) (n : Nat) : F32 :=
  (List.range n).foldl (fun pk i => dMax pk (dAbs ((b.get? ch i).getD 0))) k0

/-! ## The latch and the sizes -/

/-- The target APPLY_PARAMS and PREPARE give a smoother (40_host_commands.md R142, 48_preamp.md R281). -/
def latchTarget (h : Holders) : SmootherId → F32
  | .drive => h.drive
  | .tone => h.tone
  | .out => gainRule h.output
  | .mix u => h.get (.mix u)

/-- The effective sample rate (10_state.md R32); a positive subnormal counts as zero (log 10). -/
def rateRule (r : F32) : F32 :=
  if dLt k0 r then
    if fLt r 0x45FA0000#32 then 0x45FA0000#32 else if fLt 0x483B8000#32 r then 0x483B8000#32 else r
  else 0x472C4400#32

/-- The effective block length (R32). -/
def blockRule (w : Word) : Nat := min 8192 (max 1 w.toNat)

/-- `maxDelaySeconds` of a delay memory (10_state.md R38). -/
def maxDelay : DelayId → F32
  | .drift => k0_027
  | .echo => k0_35
  | .hazeA => k0_037
  | .hazeB => k0_053
  | .phase => k0_008
  | .cascade => k0_5
  | .glistenM => k0_08
  | .glistenS => k0_04
  | .grind => k0_3
  | .rustA => k0_023
  | .rustB => k0_047

/-- `guardSamples` of a delay memory (R38). -/
def guardOf : DelayId → Nat
  | .drift => 4
  | .echo => 19
  | .phase => 4
  | _ => 0

/-- The ramp time of a smoother (48_preamp.md R281, 40_host_commands.md R144). -/
def rampOf : SmootherId → F32
  | .mix _ => tRampMix
  | _ => tRampPre

/-- The ten tap lengths, each with its time and the memory it reads (43_delay_line.md R198). -/
def taps (s : State) : List (Nat × F32 × DelayId) :=
  [(s.units.haze.lagA, k0_037, .hazeA), (s.units.haze.lagB, k0_053, .hazeB),
   (s.units.cascade.lag0, k0_125, .cascade), (s.units.cascade.lag1, k0_25, .cascade),
   (s.units.cascade.lag2, k0_375, .cascade), (s.units.cascade.lag3, k0_5, .cascade),
   (s.units.glisten.lagM, k0_08, .glistenM), (s.units.grind.lag, k0_3, .grind),
   (s.units.rust.lagA, k0_023, .rustA), (s.units.rust.lagB, k0_047, .rustB)]

/-- The fixed filters, with kind, frequency and quality factor (42_biquad.md R178). -/
def fixedFilters : List (FilterId × FilterKind × F32 × F32) :=
  [(.dcL, .hp, k10, Config.qDc), (.dcR, .hp, k10, Config.qDc), (.echoL, .lp, k4000, Config.qFixed),
   (.echoR, .lp, k4000, Config.qFixed), (.hazeL, .lp, k2000, Config.qFixed), (.hazeR, .lp, k2000, Config.qFixed),
   (.glistenL, .hp, k2000, Config.qFixed), (.glistenR, .hp, k2000, Config.qFixed)]

/-- Every prepare-time constant SIZE computes has the value R144 gives it for the present `sr`. -/
def sized (s : State) : Prop :=
  (∀ v, (s.smoother v).numSteps = ceilNat (fMul (rampOf v) s.sr)) ∧
  (∀ d, (s.delay d).cap = ceilNat (fMul (maxDelay d) s.sr) + guardOf d) ∧
  (∀ x ∈ taps s, x.1 = floorNat (fMul x.2.1 s.sr)) ∧
  s.units.rust.ca = envCoefRule k0_001 s.sr ∧ s.units.rust.cr = envCoefRule k0_05 s.sr ∧
  (∀ x ∈ fixedFilters, coefsOf (s.filter x.1) = coefRule x.2.1 x.2.2.1 x.2.2.2 s.sr 0)

/-- The shelf's coefficients for a tone value (48_preamp.md R282). -/
def shelfCoefs (tn sr : F32) : Coefs :=
  coefRule .ls (fAdd k800 (fMul tn k4000)) Config.qShelf sr (fAdd k0_5 tn)

/-- Velvet's coefficients for a block-start mix (45_units_cathode.md R235). -/
def velvetCoefs (m0 sr : F32) : Coefs := coefRule .lp (fSub k3000 (fMul k2000 m0)) (fAdd k1 (fMul k0_5 m0)) sr 0

/-- Snarl's coefficients for a block-start mix (47_units_steel.md R266). -/
def snarlCoefs (m0 sr : F32) : Coefs := coefRule .bp (fAdd k800 (fMul k1200 m0)) (fAdd k2 (fMul k4 m0)) sr 0

/-- The audio state is neutral: the rows of 10_state.md R50 that PREPARE and RESET have in common. -/
def neutral (s : State) : Prop :=
  (∀ v, (s.smoother v).current = (s.smoother v).target ∧ (s.smoother v).stepsRemaining = 0 ∧
    (s.smoother v).increment = 0) ∧
  (∀ f, (s.filter f).x1 = 0 ∧ (s.filter f).x2 = 0 ∧ (s.filter f).y1 = 0 ∧ (s.filter f).y2 = 0) ∧
  (∀ d, (s.delay d).writePos = 0 ∧ ∀ ch i, i < (s.delay d).cap → (s.delay d).get ch i = 0) ∧
  s.units.glisten.shimR = 0 ∧ s.units.grind.cnt = 0 ∧
  s.units.drift.p = 0 ∧ s.units.echo.p = 0 ∧ s.units.phase.p = 0 ∧ s.units.shred.p = 0 ∧
  s.units.ember.prevL = 0 ∧ s.units.ember.prevR = 0 ∧ s.units.prism.zL = 0 ∧ s.units.prism.zR = 0 ∧
  s.units.grind.heldL = 0 ∧ s.units.grind.heldR = 0 ∧ s.units.rust.env = 0 ∧
  (∀ k, s.meter k = 0)

/-! ## Units and blocks -/

/-- The registers of a unit are the same in both states. -/
def sameUnit (s t : State) : UnitId → Prop
  | .ember => t.units.ember = s.units.ember
  | .velvet => t.units.velvet = s.units.velvet
  | .drift => t.units.drift = s.units.drift
  | .echo => t.units.echo = s.units.echo
  | .haze => t.units.haze = s.units.haze
  | .fracture => t.units.fracture = s.units.fracture
  | .prism => t.units.prism = s.units.prism
  | .phase => t.units.phase = s.units.phase
  | .cascade => t.units.cascade = s.units.cascade
  | .glisten => t.units.glisten = s.units.glisten
  | .scorch => t.units.scorch = s.units.scorch
  | .snarl => t.units.snarl = s.units.snarl
  | .shred => t.units.shred = s.units.shred
  | .grind => t.units.grind = s.units.grind
  | .rust => t.units.rust = s.units.rust

/-- The delay memories a unit owns (10_state.md R38). -/
def owned : UnitId → List DelayId
  | .drift => [.drift]
  | .echo => [.echo]
  | .haze => [.hazeA, .hazeB]
  | .phase => [.phase]
  | .cascade => [.cascade]
  | .glisten => [.glistenM, .glistenS]
  | .grind => [.grind]
  | .rust => [.rustA, .rustB]
  | _ => []

/-- The first `n` frames of the buffer hold a value. -/
def framesHeld (b : SampleBuffer) (n : Nat) : Prop := ∀ ch i, i < n → b.get? ch i ≠ none

/-- A unit can run over `n` frames: the frames exist and hold a value, and the memories it owns have a size. -/
def unitReady (u : UnitId) (n : Nat) (s : State) : Prop :=
  n ≤ 8192 ∧ framesHeld s.buf n ∧ ∀ d ∈ owned u, (s.delay d).cap ≠ 0

/-- Frame 0 holds `l` and `r`, and the unit's next mix value is `m`, not below the silence threshold (R230). -/
def frameAt (u : UnitId) (s : State) (l r m : F32) : Prop :=
  s.buf.get? .left 0 = some l ∧ s.buf.get? .right 0 = some r ∧ (nextRule (s.smoother (.mix u))).1 = m ∧
    dLt m mixSilence = false

/-- The smoother of a unit's mix after one advance. -/
def mixAfter (u : UnitId) (s : State) : Smoother := (nextRule (s.smoother (.mix u))).2

/-- A unit's BLOCKSTART (45_units_cathode.md R233): only Velvet and Snarl have one. -/
def blockStarted (u : UnitId) (s : State) : State :=
  match u with
  | .velvet =>
    let c := velvetCoefs s.units.velvet.mix.current s.sr
    (s.setFilter .velvetL (withCoefs s.units.velvet.fL c)).setFilter .velvetR (withCoefs s.units.velvet.fR c)
  | .snarl =>
    let c := snarlCoefs s.units.snarl.mix.current s.sr
    (s.setFilter .snarlL (withCoefs s.units.snarl.fL c)).setFilter .snarlR (withCoefs s.units.snarl.fR c)
  | _ => s

/-! ## The frames of a block -/

/-- Frame `i` of Ember, processed (45_units_cathode.md R234). -/
def emberFrame (s : State) (i : Nat) (l r m : F32) : State :=
  let u := s.units.ember
  let sL := fAdd (fMul k0_7 l) (fMul k0_3 u.prevL)
  let sR := fAdd (fMul k0_7 r) (fMul k0_3 u.prevR)
  { s with
    units := { s.units with ember := { mix := mixAfter .ember s, prevL := sL, prevR := sR } }
    buf := writeFrame s.buf i (xf l (fMul (emberRule sL) k0_7) m) (xf r (fMul (emberRule sR) k0_7) m) }

/-- Frame `i` of Velvet, processed (45_units_cathode.md R235), with the coefficients its block start set. -/
def velvetFrame (s : State) (i : Nat) (l r m : F32) : State :=
  let u := s.units.velvet
  { s with
    units := { s.units with velvet := { mix := mixAfter .velvet s, fL := bqNext u.fL l, fR := bqNext u.fR r } }
    buf := writeFrame s.buf i (xf l (bqOut u.fL l) m) (xf r (bqOut u.fR r) m) }

/-- Frame `i` of Drift, processed (45_units_cathode.md R236). -/
def driftFrame (s : State) (i : Nat) (l r m : F32) : State :=
  let u := s.units.drift
  let q := fAdd u.p k0_25
  let pR := if dGe q k1 then fSub q k1 else q
  let lag := fun p => fMul (fAdd k0_015 (fMul k0_012 (sineRule p))) s.sr
  { s with
    units := { s.units with drift := { mix := mixAfter .drift s, d := pushRule u.d l r, p := lfoRule u.p k0_3 s.sr } }
    buf := writeFrame s.buf i (xf l (fMul k0_7 (fracRule u.d .left (lag u.p))) m)
      (xf r (fMul k0_7 (fracRule u.d .right (lag pR))) m) }

/-- Frame `i` of Echo, processed (45_units_cathode.md R237). -/
def echoFrame (s : State) (i : Nat) (l r m : F32) : State :=
  let u := s.units.echo
  let t := fAdd (fMul k0_35 s.sr) (fMul k15 (sineRule u.p))
  let aL := fracRule u.d .left t
  let aR := fracRule u.d .right t
  let wL := bqOut u.fL aL
  let wR := bqOut u.fR aR
  { s with
    units := { s.units with echo :=
      { mix := mixAfter .echo s, d := pushRule u.d (fAdd l (fMul wL k0_4)) (fAdd r (fMul wR k0_4))
        p := lfoRule u.p k0_5 s.sr, fL := bqNext u.fL aL, fR := bqNext u.fR aR } }
    buf := writeFrame s.buf i (xf l wL m) (xf r wR m) }

/-- Frame `i` of Haze, processed (45_units_cathode.md R238). -/
def hazeFrame (s : State) (i : Nat) (l r m : F32) : State :=
  let u := s.units.haze
  let aL := tapRule u.combA .left u.lagA
  let aR := tapRule u.combA .right u.lagA
  let xL := fAdd (fMul k0_6 aL) (fMul k0_4 (tapRule u.combB .left u.lagB))
  let xR := fAdd (fMul k0_6 aR) (fMul k0_4 (tapRule u.combB .right u.lagB))
  let wL := bqOut u.fL xL
  let wR := bqOut u.fR xR
  { s with
    units := { s.units with haze :=
      { u with mix := mixAfter .haze s
               combA := pushRule u.combA (fAdd l (fMul k0_45 wR)) (fAdd r (fMul k0_5 wL))
               combB := pushRule u.combB (fAdd l (fMul k0_3 aR)) (fAdd r (fMul k0_3 aL))
               fL := bqNext u.fL xL, fR := bqNext u.fR xR } }
    buf := writeFrame s.buf i (xf l wL m) (xf r wR m) }

/-- Frame `i` of Fracture, processed (46_units_filament.md R250). -/
def fractureFrame (s : State) (i : Nat) (l r m : F32) : State :=
  let g := fAdd k1 (fMul m k4)
  let nb := fSub k12 (fMul m k4)
  { s with
    units := { s.units with fracture := { mix := mixAfter .fracture s } }
    buf := writeFrame s.buf i (xf l (quantRule (clipRule (fMul l g)) nb) m)
      (xf r (quantRule (clipRule (fMul r g)) nb) m) }

/-- Frame `i` of Prism, processed (46_units_filament.md R251). -/
def prismFrame (s : State) (i : Nat) (l r m : F32) : State :=
  let u := s.units.prism
  let fb := fAdd k0_5 (fMul m k0_35)
  let wL := fAdd l (fMul u.zL fb)
  let wR := fAdd r (fMul u.zR fb)
  { s with
    units := { s.units with prism := { mix := mixAfter .prism s, zL := wL, zR := wR } }
    buf := writeFrame s.buf i (xf l wL m) (xf r wR m) }

/-- Frame `i` of Phase, processed (46_units_filament.md R252). -/
def phaseFrame (s : State) (i : Nat) (l r m : F32) : State :=
  let u := s.units.phase
  let t := fMul (fMul (triRule u.p) k0_008) s.sr
  let aL := fracRule u.d .left t
  let aR := fracRule u.d .right t
  let fb := fAdd k0_5 (fMul m k0_3)
  { s with
    units := { s.units with phase :=
      { mix := mixAfter .phase s, d := pushRule u.d (fAdd l (fMul aL fb)) (fAdd r (fMul aR fb))
        p := lfoRule u.p k0_2 s.sr } }
    buf := writeFrame s.buf i (xf l (fSub l (fMul aL k0_7)) m) (xf r (fSub r (fMul aR k0_7)) m) }

/-- Frame `i` of Cascade, processed (46_units_filament.md R253). -/
def cascadeFrame (s : State) (i : Nat) (l r m : F32) : State :=
  let u := s.units.cascade
  let wet := fun ch => fMul (fAdd (fAdd (fAdd (fMul k0_7 (tapRule u.d ch u.lag0)) (fMul k0_5 (tapRule u.d ch u.lag1)))
    (fMul k0_35 (tapRule u.d ch u.lag2))) (fMul k0_2 (tapRule u.d ch u.lag3))) k0_5
  { s with
    units := { s.units with cascade :=
      { u with mix := mixAfter .cascade s
               d := pushRule u.d (fAdd l (fMul k0_15 (tapRule u.d .left u.lag3)))
                 (fAdd r (fMul k0_15 (tapRule u.d .right u.lag3))) } }
    buf := writeFrame s.buf i (xf l (wet .left) m) (xf r (wet .right) m) }

/-- Frame `i` of Glisten, processed (46_units_filament.md R254). -/
def glistenFrame (s : State) (i : Nat) (l r m : F32) : State :=
  let u := s.units.glisten
  let mL := tapRule u.main .left u.lagM
  let mR := tapRule u.main .right u.lagM
  let hL := u.shim.get .left u.shimR
  let hR := u.shim.get .right u.shimR
  { s with
    units := { s.units with glisten :=
      { u with mix := mixAfter .glisten s
               main := pushRule u.main (fAdd l (fMul glistenFb mL)) (fAdd r (fMul glistenFb mR))
               shim := pushRule u.shim l r, shimR := (u.shimR + 2) % u.shim.cap
               fL := bqNext u.fL hL, fR := bqNext u.fR hR } }
    buf := writeFrame s.buf i (xf l (fAdd (fMul k0_6 mL) (fMul k0_3 (bqOut u.fL hL))) m)
      (xf r (fAdd (fMul k0_6 mR) (fMul k0_3 (bqOut u.fR hR))) m) }

/-- Frame `i` of Scorch, processed (47_units_steel.md R265). -/
def scorchFrame (s : State) (i : Nat) (l r m : F32) : State :=
  let g := fAdd k1 (fMul m k8)
  let wet := fun x => fAdd (clipRule (fMul x g)) (fMul k0_3 (dAbs (clipRule (fMul x g))))
  { s with
    units := { s.units with scorch := { mix := mixAfter .scorch s } }
    buf := writeFrame s.buf i (xf l (wet l) m) (xf r (wet r) m) }

/-- Frame `i` of Snarl, processed (47_units_steel.md R266), with the coefficients its block start set. -/
def snarlFrame (s : State) (i : Nat) (l r m : F32) : State :=
  let u := s.units.snarl
  let g := fAdd k1 (fMul m k3)
  { s with
    units := { s.units with snarl := { mix := mixAfter .snarl s, fL := bqNext u.fL l, fR := bqNext u.fR r } }
    buf := writeFrame s.buf i (xf l (tanhF (fMul (bqOut u.fL l) g)) m) (xf r (tanhF (fMul (bqOut u.fR r) g)) m) }

/-- Frame `i` of Shred, processed (47_units_steel.md R267). -/
def shredFrame (s : State) (i : Nat) (l r m : F32) : State :=
  let u := s.units.shred
  let c := sineRule u.p
  let k := fMul m k0_8
  { s with
    units := { s.units with shred :=
      { mix := mixAfter .shred s, p := lfoRule u.p (fAdd k200 (fMul k300 m)) s.sr } }
    buf := writeFrame s.buf i (xf l (fMul l c) k) (xf r (fMul r c) k) }

/-- Frame `i` of Grind, processed (47_units_steel.md R268). -/
def grindFrame (s : State) (i : Nat) (l r m : F32) : State :=
  let u := s.units.grind
  let hold := 1 + floorNat (fMul m k7)
  let nb := fSub k16 (fMul m k12)
  let hL := if u.cnt = 0 then quantRule (tapRule u.d .left u.lag) nb else u.heldL
  let hR := if u.cnt = 0 then quantRule (tapRule u.d .right u.lag) nb else u.heldR
  { s with
    units := { s.units with grind :=
      { u with mix := mixAfter .grind s, d := pushRule u.d (fAdd l (fMul k0_5 hL)) (fAdd r (fMul k0_5 hR))
               heldL := hL, heldR := hR, cnt := if hold ≤ u.cnt + 1 then 0 else u.cnt + 1 } }
    buf := writeFrame s.buf i (xf l hL m) (xf r hR m) }

/-- Frame `i` of Rust, processed (47_units_steel.md R269). -/
def rustFrame (s : State) (i : Nat) (l r m : F32) : State :=
  let u := s.units.rust
  let env := envRule u.env (dMax (dAbs l) (dAbs r)) u.ca u.cr
  let a := fun ch => tapRule u.combA ch u.lagA
  let b := fun ch => tapRule u.combB ch u.lagB
  let wet := fun ch => fMul (fMul (fAdd (a ch) (b ch)) k0_5) (gateRule env)
  { s with
    units := { s.units with rust :=
      { u with mix := mixAfter .rust s
               combA := pushRule u.combA (fAdd l (fMul rustFb (b .left))) (fAdd r (fMul rustFb (b .right)))
               combB := pushRule u.combB (fAdd l (fMul rustFb (a .left))) (fAdd r (fMul rustFb (a .right)))
               env := env } }
    buf := writeFrame s.buf i (xf l (wet .left) m) (xf r (wet .right) m) }

/-- Frame `i` of a unit, processed. -/
def processedFrame : UnitId → State → Nat → F32 → F32 → F32 → State
  | .ember => emberFrame
  | .velvet => velvetFrame
  | .drift => driftFrame
  | .echo => echoFrame
  | .haze => hazeFrame
  | .fracture => fractureFrame
  | .prism => prismFrame
  | .phase => phaseFrame
  | .cascade => cascadeFrame
  | .glisten => glistenFrame
  | .scorch => scorchFrame
  | .snarl => snarlFrame
  | .shred => shredFrame
  | .grind => grindFrame
  | .rust => rustFrame

/-- The word frame `i` holds in a channel. -/
def wordAt (s : State) (ch : Channel) (i : Nat) : F32 := (s.buf.get? ch i).getD 0

/-- Frame `i` of a unit's code (45_units_cathode.md R230): the mix advances; below the silence threshold nothing else
happens, else the frame is processed. -/
def unitFrame (u : UnitId) (s : State) (i : Nat) : State :=
  if dLt (nextRule (s.smoother (.mix u))).1 mixSilence then s.setSmoother (.mix u) (mixAfter u s)
  else processedFrame u s i (wordAt s .left i) (wordAt s .right i) (nextRule (s.smoother (.mix u))).1

/-- Frame `i` of PREAMP (48_preamp.md R280). -/
def preampFrame (s : State) (i : Nat) : State :=
  let p := s.pre
  let tn := (nextRule p.tone).1
  let og := (nextRule p.out).1
  let g := fAdd k1 (fMul (nextRule p.drive).1 k3)
  let c := shelfCoefs tn s.sr
  let shL := withCoefs p.shelfL c
  let shR := withCoefs p.shelfR c
  let xL := softRule (xfmrRule (fMul (wordAt s .left i) g))
  let xR := softRule (xfmrRule (fMul (wordAt s .right i) g))
  { s with
    pre := { drive := (nextRule p.drive).2, tone := (nextRule p.tone).2, out := (nextRule p.out).2
             shelfL := bqNext shL xL, shelfR := bqNext shR xR
             dcL := bqNext p.dcL (bqOut shL xL), dcR := bqNext p.dcR (bqOut shR xR) }
    buf := writeFrame s.buf i (fMul (bqOut p.dcL (bqOut shL xL)) og) (fMul (bqOut p.dcR (bqOut shR xR)) og) }

/-- PROCESS may be performed: the audio port, prepared, and no longer than `maxblk` (30_encoding.md R107). -/
def processAllowed (n : Word) (s : State) : Prop :=
  s.granted = .audio ∧ s.status.prepared = true ∧ n.toNat ≤ s.maxblk

/-- The premise of 00_scope.md R10 and U4: in this block every word read holds a finite value and no operation gives a
result that is not finite (and every memory used has a size). -/
def blockClean (n : Nat) (s : State) : Prop := marksOf (processBlock n s) = {}

/-- The state after the latch of PROCESS. -/
def latched (s : State) : State := valueOf (processLatch s)

/-- The eighteen smoothers (10_state.md R36). -/
def allSmoothers : List SmootherId := [.drive, .tone, .out] ++ allUnits.map .mix

/-- The state with every smoother put back as it is in `s`. -/
def smoothersFrom (s t : State) : State := allSmoothers.foldl (fun a v => a.setSmoother v (s.smoother v)) t

/-- What RESET_STATE keeps of the audio state: targets, ramp lengths, coefficients, capacities, the words above them, tap
lengths and envelope coefficients (40_host_commands.md R143). -/
def keptByReset (s t : State) : Prop :=
  (∀ v, (t.smoother v).target = (s.smoother v).target ∧ (t.smoother v).numSteps = (s.smoother v).numSteps) ∧
  (∀ f, coefsOf (t.filter f) = coefsOf (s.filter f)) ∧
  (∀ d, (t.delay d).cap = (s.delay d).cap ∧
    ∀ ch i, (s.delay d).cap ≤ i → (t.delay d).get ch i = (s.delay d).get ch i) ∧
  taps t = taps s ∧ t.units.rust.ca = s.units.rust.ca ∧ t.units.rust.cr = s.units.rust.cr

/-- What SIZE keeps of the audio state: everything but the prepare-time constants (10_state.md R43). -/
def keptBySize (s t : State) : Prop :=
  (∀ v, t.smoother v = { s.smoother v with numSteps := (t.smoother v).numSteps }) ∧
  (∀ f, t.filter f = withCoefs (s.filter f) (coefsOf (t.filter f))) ∧
  (∀ f, f ∉ fixedFilters.map (·.1) → t.filter f = s.filter f) ∧
  (∀ d, t.delay d = { s.delay d with cap := (t.delay d).cap }) ∧
  t.units.ember.prevL = s.units.ember.prevL ∧ t.units.ember.prevR = s.units.ember.prevR ∧
  t.units.prism.zL = s.units.prism.zL ∧ t.units.prism.zR = s.units.prism.zR ∧
  t.units.drift.p = s.units.drift.p ∧ t.units.echo.p = s.units.echo.p ∧ t.units.phase.p = s.units.phase.p ∧
  t.units.shred.p = s.units.shred.p ∧ t.units.glisten.shimR = s.units.glisten.shimR ∧
  t.units.grind.heldL = s.units.grind.heldL ∧ t.units.grind.heldR = s.units.grind.heldR ∧
  t.units.grind.cnt = s.units.grind.cnt ∧ t.units.rust.env = s.units.rust.env

/-- `k` times the same instruction; the first stop ends it. -/
def repeated : Nat → Instr → State → Out
  | 0, _, s => .next s
  | k + 1, i, s =>
    match exec i s with
    | .next t => repeated k i t
    | o => o

/-- `k` write-advance pairs on a delay memory, one for each value of the list. -/
def pushed (d : DelayId) : List (F32 × F32) → State → Out
  | [], s => .next s
  | v :: vs, s =>
    match exec (.dlWrite d v.1 v.2) s with
    | .next t =>
      match exec (.dlAdvance d) t with
      | .next t' => pushed d vs t'
      | o => o
    | o => o

/-! ## Invariants of a safe run -/

/-- A cursor of a sized memory lies inside it (10_state.md R48). -/
def inside (pos cap : Nat) : Prop := cap = 0 ∨ pos < cap

/-- Memory is canonical and no cursor leaves its memory (R48, 43_delay_line.md R197). -/
def MemoryInv (s : State) : Prop :=
  Memory.wf s = true ∧ (∀ d, inside (s.delay d).writePos (s.delay d).cap) ∧
    inside s.units.glisten.shimR s.units.glisten.shim.cap

/-- Every smoother is idle at its target or within its ramp (R48, 41_smoother.md R160). -/
def SmootherInv (s : State) : Prop :=
  ∀ v, (s.smoother v).stepsRemaining ≤ (s.smoother v).numSteps ∧
    ((s.smoother v).stepsRemaining = 0 → (s.smoother v).current = (s.smoother v).target)

/-- A word a holder may hold (10_state.md R33). -/
def legalWord : HolderId → Word → Prop
  | .bypass, w => w.toNat ≤ 1
  | .preampType, w => w.toNat ≤ 2
  | _, w => fLe k0 w = true ∧ fLe w k1 = true

/-- Every holder holds a legal value, and a block length once prepared is between 1 and the buffer's depth (R48, R32). -/
def HolderInv (s : State) : Prop :=
  (∀ h, legalWord h (s.holder h)) ∧ (s.status.prepared = true → 1 ≤ s.maxblk ∧ s.maxblk ≤ 8192)

/-- Every meter register holds a number that is not negative (R48). -/
def MeterInv (s : State) : Prop := ∀ k, fLe k0 (s.meter k) = true

/-- The four oscillator phases (10_state.md R39). -/
def phases (s : State) : List F32 := [s.units.drift.p, s.units.echo.p, s.units.phase.p, s.units.shred.p]

/-- Every phase is in [0, 1) and Grind's counter in [0, 7] (R48); a prepared block has a rate R32 allows, and no code waits
in the sequencer's slot (log 4). -/
def PhaseCounterInv (s : State) : Prop :=
  s.dispatch = [] ∧ (∀ p ∈ phases s, fLe k0 p = true ∧ fLt p k1 = true) ∧ s.units.grind.cnt ≤ 7 ∧
    (s.status.prepared = true → fLe Config.fsMin s.sr = true ∧ fLe s.sr Config.fsMax = true)

/-- No value of a mix reaches 8/7 (0x3F924925 is the first above it) from here on, nor after the next latch, nor after
the latch and a snap. R165 lets rounding take a very long ramp past its target (log 31). -/
def mixBelow (u : UnitId) (s : State) : Prop :=
  let v := s.smoother (.mix u)
  let w := settargetRule v (s.holders.get (.mix u))
  ∀ x ∈ [v, w, snapRule w], ∀ k, fLt (advanced k x).current 0x3F924924#32 = true

/-- The filter pairs, left with right (10_state.md R37). -/
def pairs : List (FilterId × FilterId) :=
  [(.shelfL, .shelfR), (.dcL, .dcR), (.velvetL, .velvetR), (.echoL, .echoR), (.hazeL, .hazeR), (.glistenL, .glistenR),
    (.snarlL, .snarlR)]

/-- The two filters of a pair hold equal coefficients, and no code waits in the sequencer's slot (R37, R181). -/
def PairInv (s : State) : Prop :=
  s.dispatch = [] ∧ ∀ x ∈ pairs, coefsOf (s.filter x.1) = coefsOf (s.filter x.2)

end Sys2Proof.Safety
end

