-- ==== Sys2Proof/Certificates/Slice0/Obligations.lean ====
section
/-! DEFINITION. The statements for the provers. Each docstring names the rule of spec/ it formalises; where a clause rests
on a choice of the model it names the log entry. -/

section

open Sys2Proof Sys2Proof.Machine Sys2Proof.Safety

/-! ## Encoding and decoding -/

/-- Words written out from 30_encoding.md R103, R105, R106 and 95_test_vectors.md 2.10 decode to their instructions; the
operand places of the one-byte codes are the model's (log 4). -/
def Obligations.CommandWordsDecode : Prop :=
  decodeTableWord 64 0x01000000473B8000 = some (.setcfg 0 0x473B8000#32) ∧
  decodeTableWord 64 0x0500000000000002 = some (.process 2) ∧
  decodeTableWord 64 0x06000001BE800000 = some (.wrbuf 0 1 0xBE800000#32) ∧
  decodeTableWord 64 0x0701000300000000 = some (.rdbuf 1 3) ∧
  decodeTableWord 64 0x102100003F800000 = some (.setparam 0x21 0x3F800000#32) ∧
  decodeTableWord 64 0x2002000000000000 = some (.getmeter 2) ∧
  decodeTableWord 64 0x0300000000000001 = none ∧
  decodeTableWord 64 0x0900000000000000 = none ∧
  decodeTableWord 8 0x21 = some (.unitPrism 0) ∧
  decodeTableWord 8 0x34 = some (.unitRust 0) ∧
  decodeTableWord 8 0x15 = none ∧
  decodeTableWord 8 0x03 = some (.bqSetcLs .shelfL 0 0 0 0)

/-- Every instruction that has an encoding decodes back from it, with every operand at every value (R100, R103, R105,
R106); every command, unit code and filter-kind code has an encoding. -/
def Obligations.DecodeOfEncode : Prop :=
  (∀ i c, encode i = some c → decode c = some i) ∧
  (∀ op w, encode (instrOf op w) ≠ none) ∧ (∀ u n, encode (unitInstr u n) ≠ none) ∧
  (∀ f fc q sr g, encode (.bqSetcLp f fc q sr) ≠ none ∧ encode (.bqSetcHp f fc q sr) ≠ none ∧
    encode (.bqSetcBp f fc q sr) ≠ none ∧ encode (.bqSetcLs f fc q sr g) ≠ none)

/-- A code has one meaning: what it decodes to encodes to it, so no bit of a code is ignored (R103, R105, R106). -/
def Obligations.EncodeOfDecode : Prop := ∀ c i, decode c = some i → encode i = some c

/-- The check order of a command word (30_encoding.md R107): the first failing check decides, nothing but the sticky bit
changes; with no failing check the command is performed and any response it gives is OK. The reserved opcodes are those
R107 lists. -/
def Obligations.CheckOrder : Prop :=
  (∀ w s e, firstError w s = some e → runCommand w s = .next (raise e s)) ∧
  (∀ w s, firstError w s = none →
    (∃ op i, decodeCmd w = .instr op i ∧ runCommand w s = exec i s) ∧
    ∀ t, runCommand w s = .next t →
      ∃ v, (t.port s.granted).responses = (s.port s.granted).responses ++ [rspWord 0 v]) ∧
  (∀ w, rowOf w = none ↔ (0x09 ≤ (opField w).toNat ∧ (opField w).toNat ≤ 0x0F) ∨
    (0x12 ≤ (opField w).toNat ∧ (opField w).toNat ≤ 0x1F) ∨ 0x21 ≤ (opField w).toNat)

/-- The dispatch table of the chain sequencer (R112). -/
def Obligations.ChainTable : Prop :=
  ∀ f c, tagOf (chain f c) = 0x10 + 0x10 * (familyCode f).setWidth 8 +
    (match c with | .distortion => 0 | .filter => 1 | .modulation => 2 | .delay => 3 | .reverb => 4)

/-! ## Refusals, ports, steps -/

/-- `raise E` (60_exceptions.md R305, R301): the response is the code with value 0 on the issuing port, the sticky bit
7 + code is set, nothing else changes; and no step ever clears a sticky bit. -/
def Obligations.RaiseIsPrecise : Prop :=
  (Err.code .illegal = 1 ∧ Err.code .sel = 2 ∧ Err.code .notPrep = 3 ∧ Err.code .len = 4 ∧ Err.code .index = 5 ∧
    Err.code .port = 6) ∧
  (∀ e s,
    (raise e s).statusWord = s.statusWord ||| (1#32 <<< (7 + e.code.toNat)) ∧
    (raise e s).sticky e = true ∧ (∀ e', e' ≠ e → (raise e s).sticky e' = s.sticky e') ∧
    (raise e s).status.prepared = s.status.prepared ∧
    (raise e s).port s.granted =
      { s.port s.granted with responses := (s.port s.granted).responses ++ [rspWord e.code 0] } ∧
    (∀ q, q ≠ s.granted → (raise e s).port q = s.port q) ∧
    { raise e s with status := s.status, audio := s.audio, control := s.control, monitor := s.monitor } = s) ∧
  (∀ s t e, s.sticky e = true → step s = .next t → t.sticky e = true)

/-- The rights of the three ports (60_exceptions.md R312): a command on a port without the right is refused with E_PORT;
with the right it is not. -/
def Obligations.PortRights : Prop :=
  ∀ w s op i, decodeCmd w = .instr op i →
    (s.granted ∉ rights op → exec i s = .next (raise .port s)) ∧
    (s.granted ∈ rights op → ∀ t, exec i s = .next t → t.status.ePort = s.status.ePort)

/-- The power-on values 10_state.md R49 gives; the rows it leaves unspecified are not mentioned (logs 13, 16). -/
def Obligations.PowerOnValues : Prop :=
  let s := State.reset
  (∀ r, s.cfgReg r = 0) ∧ (∀ h, s.holder h = 0) ∧ s.statusWord = 0 ∧ s.bypassPrev = false ∧ s.family = .cathode ∧
  (∀ v, s.smoother v = { current := 0, target := 0, stepsRemaining := 0, increment := 0, numSteps := 0 }) ∧
  (∀ k, s.meter k = 0) ∧ (∀ ch i, s.buf.get? ch i = none)

/-- A step runs the decoded instruction: a code of the sequencer's slot, the command of the port the arbiter chose, the
only command waiting; with nothing waiting the block idles (R78, 60_exceptions.md R317). The slot, the served counter and
`withFetchWord` are the model's (logs 2, 3, 4). -/
def Obligations.StepRunsDecoded : Prop :=
  (∀ s c cs i, s.dispatch = c :: cs → decodeSeq c = some i → step s = exec i { s with dispatch := cs }) ∧
  (∀ s w s1 op i, s.dispatch = [] → nextCommand s = some (w, s1) → decodeCmd w = .instr op i → step s = exec i s1) ∧
  (∀ s p w ws, (s.port p).commands = w :: ws → (∀ q, q ≠ p → (s.port q).commands = []) →
    nextCommand s =
      some (w, { s.setPort p { s.port p with commands := ws } with granted := p, serial := s.serial + 1 })) ∧
  (∀ s, s.dispatch = [] → (∀ p, (s.port p).commands = []) → step s = .next s) ∧
  (∀ (s : State) w i, decodeTableWord 8 w = some i → step (s.withFetchWord 8 w) = exec i { s with dispatch := [] }) ∧
  (∀ (s : State) w i, decodeTableWord 64 w = some i →
    step (s.withFetchWord 64 w) =
      exec i { State.quiet { s with dispatch := [] } with granted := portFor (BitVec.ofNat 64 w),
                                                          serial := s.serial + 1 })

/-- Commands of one port execute in the order issued, one at a time, and each returns one response on its own port
(20_memory.md R78, 30_encoding.md R101): a step takes the oldest word of one port, and the next state is that word's
execution in the state without it, the port granted and the served count advanced. The queue and response lists and the
served count are the model's (logs 2, 25, 3). -/
def Obligations.PortOrderKept : Prop :=
  ∀ s t, s.dispatch = [] → step s = .next t →
    (t = s ∧ ∀ p, (s.port p).commands = []) ∨
    ∃ p w ws r, (s.port p).commands = w :: ws ∧
      runCommand w { s.setPort p { s.port p with commands := ws } with granted := p, serial := s.serial + 1 } = .next t ∧
      t.port p = { commands := ws, responses := (s.port p).responses ++ [r] } ∧ ∀ q, q ≠ p → t.port q = s.port q

/-- Every register file holds what is written to an entry, no other entry and no other state changes
(10_state.md R30, R51). -/
def Obligations.RegisterFilesHold : Prop :=
  (∀ s i x, (State.setHolder s i x).holder i = x ∧ (∀ j, j ≠ i → (s.setHolder i x).holder j = s.holder j) ∧
    (s.setHolder i x).setHolder i (s.holder i) = s) ∧
  (∀ s i x, (State.setCfg s i x).cfgReg i = x ∧ (∀ j, j ≠ i → (s.setCfg i x).cfgReg j = s.cfgReg j) ∧
    (s.setCfg i x).setCfg i (s.cfgReg i) = s) ∧
  (∀ s i x, (State.setMeter s i x).meter i = x ∧ (∀ j, j ≠ i → (s.setMeter i x).meter j = s.meter j) ∧
    (s.setMeter i x).setMeter i (s.meter i) = s) ∧
  (∀ s i x, (State.setSmoother s i x).smoother i = x ∧ (∀ j, j ≠ i → (s.setSmoother i x).smoother j = s.smoother j) ∧
    (s.setSmoother i x).setSmoother i (s.smoother i) = s) ∧
  (∀ s i x, (State.setFilter s i x).filter i = x ∧ (∀ j, j ≠ i → (s.setFilter i x).filter j = s.filter j) ∧
    (s.setFilter i x).setFilter i (s.filter i) = s) ∧
  (∀ s i x, (State.setDelay s i x).delay i = x ∧ (∀ j, j ≠ i → (s.setDelay i x).delay j = s.delay j) ∧
    (s.setDelay i x).setDelay i (s.delay i) = s)

/-- The places of the STATUS bits (10_state.md R34). -/
def Obligations.StatusWordLayout : Prop :=
  ∀ s : State, s.statusWord.getLsbD 0 = s.status.prepared ∧ s.statusWord.getLsbD 1 = s.bypassPrev ∧
    s.statusWord.extractLsb' 2 2 = familyCode s.family ∧ s.statusWord.extractLsb' 4 4 = 0 ∧
    s.statusWord.getLsbD 8 = s.status.eIllegal ∧ s.statusWord.getLsbD 9 = s.status.eSel ∧
    s.statusWord.getLsbD 10 = s.status.eNotPrep ∧ s.statusWord.getLsbD 11 = s.status.eLen ∧
    s.statusWord.getLsbD 12 = s.status.eIndex ∧ s.statusWord.getLsbD 13 = s.status.ePort ∧
    s.statusWord.extractLsb' 14 18 = 0

/-! ## Commands -/

/-- The commands that only answer (40_host_commands.md R130, R132, R137, R138, R139; 20_memory.md R75): the response is
the word read, nothing else changes; a reserved `sel` is refused. -/
def Obligations.ReadCommands : Prop :=
  ∀ s : State,
    exec .nop s = .next (s.respond 0) ∧ exec .getstatus s = .next (s.respond s.statusWord) ∧
    (s.granted = .audio → (∀ x ∈ cfgTable, exec (.getcfg x.1) s = .next (s.respond (s.cfgReg x.2))) ∧
      ∀ sel, 2 < sel.toNat → exec (.getcfg sel) s = .next (raise .sel s)) ∧
    (s.granted ≠ .monitor → (∀ x ∈ holderTable, exec (.getparam x.1) s = .next (s.respond (s.holder x.2))) ∧
      ∀ sel, sel ∉ holderTable.map (·.1) → exec (.getparam sel) s = .next (raise .sel s)) ∧
    (s.granted ≠ .control → (∀ x ∈ meterTable, exec (.getmeter x.1) s = .next (s.respond (s.meter x.2))) ∧
      ∀ sel, 3 < sel.toNat → exec (.getmeter sel) s = .next (raise .sel s))

/-- SETCFG (R131): the word is stored as given in the register `sel` names, nothing else changes. -/
def Obligations.SetcfgStores : Prop :=
  ∀ s : State, s.granted = .audio →
    (∀ x ∈ cfgTable, ∀ data, exec (.setcfg x.1 data) s = .next ((s.setCfg x.2 data).respond 0)) ∧
    ∀ sel data, 2 < sel.toNat → exec (.setcfg sel data) s = .next (raise .sel s)

/-- WRBUF and RDBUF (R140, R141, 20_memory.md R71, R73): the word is stored unchanged and read back; no other word of the
buffer changes; a reserved `sel` and an index of 8192 or more are refused; a word never written is not answered
(10_state.md R49; log 13). -/
def Obligations.BufferCommands : Prop :=
  (∀ s : State, s.granted = .audio → ∀ x ∈ channelTable, ∀ idx data,
    (idx.toNat < 8192 →
      exec (.wrbuf x.1 idx data) s = .next (State.respond { s with buf := s.buf.set x.2 idx.toNat data } 0) ∧
      (∀ w, s.buf.get? x.2 idx.toNat = some w → exec (.rdbuf x.1 idx) s = .next (s.respond w)) ∧
      (s.buf.get? x.2 idx.toNat = none → exec (.rdbuf x.1 idx) s = .refused .unwrittenWord)) ∧
    (8192 ≤ idx.toNat → exec (.wrbuf x.1 idx data) s = .next (raise .index s) ∧
      exec (.rdbuf x.1 idx) s = .next (raise .index s))) ∧
  (∀ s : State, s.granted = .audio → ∀ sel idx data, 1 < sel.toNat →
    exec (.wrbuf sel idx data) s = .next (raise .sel s) ∧ exec (.rdbuf sel idx) s = .next (raise .sel s)) ∧
  (∀ (b : SampleBuffer) ch i v, (b.set ch i v).get? ch i = some v ∧
    ∀ ch' j, (ch', j) ≠ (ch, i) → (b.set ch i v).get? ch' j = b.get? ch' j)

/-- SETPARAM (R136, 30_encoding.md R102): the legalised word is stored in the holder `sel` names, nothing else changes; a
`sel` that is no holder is refused. -/
def Obligations.SetparamStores : Prop :=
  ∀ s : State, s.granted = .control →
    (∀ x ∈ holderTable, ∀ data, exec (.setparam x.1 data) s = .next ((s.setHolder x.2
      (if x.1 = 0x03#8 then (if data ≠ 0 then 1 else 0)
       else if x.1 = 0x04#8 then (if 2 < data.toNat then 2 else data)
       else if isNaN data then 0
       else if fLt data k0 then k0 else if fLt k1 data then k1 else data)).respond 0)) ∧
    ∀ sel data, sel ∉ holderTable.map (·.1) → exec (.setparam sel data) s = .next (raise .sel s)

/-- What PREPARE derives (10_state.md R32, R133): `sr`, `maxblk` and PREPARED. A positive subnormal rate counts as zero
(log 10). -/
def Obligations.PrepareDerives : Prop :=
  ∀ s : State, s.granted = .audio → ∃ t, exec .prepare s = .next t ∧ t.status.prepared = true ∧
    t.sr = rateRule s.cfg.sampleRate ∧ t.maxblk = blockRule s.cfg.maxBlock

/-- The state after PREPARE (10_state.md R50, 40_host_commands.md R133): audio state neutral, targets and sequencer
registers from the holders, `sr`, `maxblk` and every other prepare-time constant recomputed, shelf, Velvet and Snarl
coefficients from the snapped values; the rest unchanged. A positive subnormal rate counts as zero (log 10). -/
def Obligations.StateAfterPrepare : Prop :=
  ∀ s : State, s.granted = .audio → ∃ t, exec .prepare s = .next t ∧
    t.sr = rateRule s.cfg.sampleRate ∧ t.maxblk = blockRule s.cfg.maxBlock ∧
    neutral t ∧ sized t ∧ (∀ v, (t.smoother v).target = latchTarget s.holders v) ∧
    (∀ f ∈ [FilterId.shelfL, .shelfR], coefsOf (t.filter f) = shelfCoefs s.holders.tone t.sr) ∧
    (∀ f ∈ [FilterId.velvetL, .velvetR], coefsOf (t.filter f) = velvetCoefs s.holders.cathVelvet t.sr) ∧
    (∀ f ∈ [FilterId.snarlL, .snarlR], coefsOf (t.filter f) = snarlCoefs s.holders.steelSnarl t.sr) ∧
    t.family = familyOf s.holders.preampType ∧ t.bypassPrev = (s.holders.bypass != 0) ∧
    t.status = { s.status with prepared := true } ∧
    t.audio = { s.audio with responses := s.audio.responses ++ [rspWord 0 0] } ∧
    { t with sr := s.sr, maxblk := s.maxblk, status := s.status, bypassPrev := s.bypassPrev, family := s.family,
             pre := s.pre, units := s.units, meters := s.meters, audio := s.audio } = s

/-- The state after RESET (10_state.md R50, 40_host_commands.md R134, R143): audio state neutral, constants, targets and
coefficients kept, the rest unchanged. -/
def Obligations.StateAfterReset : Prop :=
  ∀ s : State, s.granted = .audio → s.status.prepared = true → ∃ t, exec .reset s = .next t ∧
    neutral t ∧ keptByReset s t ∧
    t.audio = { s.audio with responses := s.audio.responses ++ [rspWord 0 0] } ∧
    { t with pre := s.pre, units := s.units, meters := s.meters, audio := s.audio } = s

/-- With every effective rate PREPARE can derive, every memory has at least 64 words and every tap length lies between 1
and the capacity of its memory (40_host_commands.md R144, 43_delay_line.md R190, R198). -/
def Obligations.PrepareSizesSafe : Prop :=
  ∀ s : State, s.granted = .audio → ∃ t, exec .prepare s = .next t ∧ (∀ d, 64 ≤ (t.delay d).cap) ∧
    ∀ x ∈ taps t, 1 ≤ x.1 ∧ x.1 ≤ (t.delay x.2.2).cap

/-- RESET is idempotent (70_reset_and_hazards.md R333): the second one only answers. -/
def Obligations.ResetIdempotent : Prop :=
  ∀ s : State, s.granted = .audio → s.status.prepared = true →
    ∃ t, exec .reset s = .next t ∧ exec .reset t = .next (t.respond 0)

/-- PROCESS while `bypass` is latched (49_chain_and_meter.md R295, 40_host_commands.md R135): after the latch, and
RESET_STATE if the bypass value changed, every word of the buffer keeps its pattern, no filter, delay memory or meter
changes but by that reset; one OK response. The latch must be clean (00_scope.md R10). -/
def Obligations.BypassLeavesBuffer : Prop :=
  ∀ (s : State) (n : Word), processAllowed n s → s.holders.bypass ≠ 0 → marksOf (processLatch s) = {} →
    ∃ t, exec (.process n) s = .next t ∧ t = (latched s).respond 0 ∧ t.buf = s.buf ∧ t.bypassPrev = true ∧
      (s.bypassPrev = true → t.meters = s.meters ∧ (∀ f, t.filter f = s.filter f) ∧ (∀ d, t.delay d = s.delay d) ∧
        ∀ v, t.smoother v = settargetRule (s.smoother v) (latchTarget s.holders v)) ∧
      (s.bypassPrev = false → neutral t)

/-- A PROCESS that is not bypassed is its stages in order (40_host_commands.md R135, 49_chain_and_meter.md R291, R294):
the latch, PREAMP, the five units of the active family in category order, then the four meters from the block peaks
before and after. The premise is that of 00_scope.md R10. -/
def Obligations.ProcessIsItsStages : Prop :=
  ∀ (s : State) (n : Word), processAllowed n s → s.holders.bypass = 0 → blockClean n.toNat s →
    ∃ s2 s3 s4 s5 s6 s7,
      exec (.preamp n) (latched s) = .next s2 ∧
      exec (unitInstr (chain (latched s).family .distortion) n) s2 = .next s3 ∧
      exec (unitInstr (chain (latched s).family .filter) n) s3 = .next s4 ∧
      exec (unitInstr (chain (latched s).family .modulation) n) s4 = .next s5 ∧
      exec (unitInstr (chain (latched s).family .delay) n) s5 = .next s6 ∧
      exec (unitInstr (chain (latched s).family .reverb) n) s6 = .next s7 ∧
      exec (.process n) s = .next (State.respond { s7 with meters :=
        { inL := meterRule (latched s).meters.inL (blockPeak (latched s).buf .left n.toNat)
          inR := meterRule (latched s).meters.inR (blockPeak (latched s).buf .right n.toNat)
          outL := meterRule (latched s).meters.outL (blockPeak s7.buf .left n.toNat)
          outR := meterRule (latched s).meters.outR (blockPeak s7.buf .right n.toNat) } } 0)

/-- What PROCESS leaves alone (10_state.md R42, 49_chain_and_meter.md R293): frames from `n` up, the ten inactive units
but for the latch, holders, configuration, every prepare-time constant of R43 (those of active units and of the preamp
too), STATUS but its mirrors, the other ports. -/
def Obligations.ProcessFrame : Prop :=
  ∀ (s : State) (n : Word), processAllowed n s → blockClean n.toNat s →
    ∃ t, exec (.process n) s = .next t ∧
      t.family = familyOf s.holders.preampType ∧ t.bypassPrev = (s.holders.bypass != 0) ∧
      t.audio = { s.audio with responses := s.audio.responses ++ [rspWord 0 0] } ∧
      (∀ ch i, n.toNat ≤ i → t.buf.get? ch i = s.buf.get? ch i) ∧
      (∀ u, (∀ c, u ≠ chain t.family c) → sameUnit (latched s) t u) ∧
      (∀ v, (t.smoother v).numSteps = (s.smoother v).numSteps) ∧ (∀ d, (t.delay d).cap = (s.delay d).cap) ∧
      taps t = taps s ∧ t.units.rust.ca = s.units.rust.ca ∧ t.units.rust.cr = s.units.rust.cr ∧
      (∀ x ∈ fixedFilters, coefsOf (t.filter x.1) = coefsOf (s.filter x.1)) ∧
      { t with family := s.family, bypassPrev := s.bypassPrev, pre := s.pre, units := s.units, meters := s.meters,
               buf := s.buf, audio := s.audio } = s

/-! ## Filters -/

/-- BQ.SETC and its four kinds (42_biquad.md R172, R174 to R177, R179): the coefficients of the instance are those of the
cookbook formulas in the written order; the history and everything else are unchanged. Only the low-shelf reads `g`. -/
def Obligations.SetcCookbook : Prop :=
  ∀ (s : State) (f : FilterId) (fc q sr g : F32),
    exec (.bqSetcLp f fc q sr) s = .next (s.setFilter f (withCoefs (s.filter f) (coefRule .lp fc q sr 0))) ∧
    exec (.bqSetcHp f fc q sr) s = .next (s.setFilter f (withCoefs (s.filter f) (coefRule .hp fc q sr 0))) ∧
    exec (.bqSetcBp f fc q sr) s = .next (s.setFilter f (withCoefs (s.filter f) (coefRule .bp fc q sr 0))) ∧
    exec (.bqSetcLs f fc q sr g) s = .next (s.setFilter f (withCoefs (s.filter f) (coefRule .ls fc q sr g))) ∧
    ∀ k, exec (.bqSetc f k fc q sr g) s = .next (s.setFilter f (withCoefs (s.filter f) (coefRule k fc q sr g)))

/-- BQ.PROCESS (R170): the Direct Form I recurrence in the written order, the history shifted, the rest unchanged. -/
def Obligations.BqRecurrence : Prop :=
  ∀ (s : State) (f : FilterId) (x : F32),
    exec (.bqProcess f x) s =
      .next ((s.setFilter f (bqNext (s.filter f) x)).setWires [bqOut (s.filter f) x])

/-- BQ.RESET (R171): the history is zeroed, the coefficients and everything else are unchanged. -/
def Obligations.BqResetHistory : Prop :=
  ∀ (s : State) (f : FilterId),
    exec (.bqReset f) s = .next (s.setFilter f { s.filter f with x1 := 0, x2 := 0, y1 := 0, y2 := 0 })

/-- Zero in, zero out (R170, R181): a filter with finite coefficients whose history is zero answers a zero to a zero, and
its history stays zero; the zeros may be of either sign (log 30). -/
def Obligations.BqZeroInZeroOut : Prop :=
  ∀ (s : State) (f : FilterId) (x : F32),
    let z := fun w : F32 => w = 0x00000000#32 ∨ w = 0x80000000#32
    let b := s.filter f
    isFin b.b0 → isFin b.b1 → isFin b.b2 → isFin b.a1 → isFin b.a2 →
    z x → z b.x1 → z b.x2 → z b.y1 → z b.y2 →
    ∃ t y, exec (.bqProcess f x) s = .next t ∧ t.wires = [y] ∧ z y ∧
      z (t.filter f).x1 ∧ z (t.filter f).x2 ∧ z (t.filter f).y1 ∧ z (t.filter f).y2 ∧
      coefsOf (t.filter f) = coefsOf b

/-- The two filters of a pair hold equal coefficients at all times (10_state.md R37, R181): every step of commands keeps
it. Codes put into the model's slot from outside (log 4) are excluded by the invariant. -/
def Obligations.PairInvKept : Prop := ∀ s t, PairInv s → step s = .next t → PairInv t

/-! ## Smoothers -/

/-- SV.RESET and SV.SNAP (41_smoother.md R161). -/
def Obligations.SvResetSnap : Prop :=
  ∀ (s : State) (v : SmootherId) (sr t : F32),
    exec (.svSnap v) s = .next (s.setSmoother v (snapRule (s.smoother v))) ∧
    exec (.svReset v sr t) s =
      .next (s.setSmoother v (snapRule { s.smoother v with numSteps := ceilNat (fMul t sr) }))

/-- SV.SETTARGET (R162). -/
def Obligations.SvSettarget : Prop :=
  ∀ (s : State) (v : SmootherId) (t : F32),
    exec (.svSettarget v t) s = .next (s.setSmoother v (settargetRule (s.smoother v) t))

/-- SV.NEXT and SV.CURRENT (R163, R164): NEXT advances one step and lands on the target; CURRENT changes nothing but the
result wire (log 5). -/
def Obligations.SvNextCurrent : Prop :=
  ∀ (s : State) (v : SmootherId),
    exec (.svNext v) s =
      .next ((s.setSmoother v (nextRule (s.smoother v)).2).setWires [(nextRule (s.smoother v)).1]) ∧
    exec (.svCurrent v) s = .next (s.setWires [(s.smoother v).current])

/-- After SV.SETTARGET with a new value, exactly `numSteps` calls of SV.NEXT end on the target bit for bit and idle; one
more returns the target again (R163, R166). -/
def Obligations.RampEndsOnTarget : Prop :=
  ∀ (s : State) (v : SmootherId) (t : F32), dEq t (s.smoother v).target = false → 1 ≤ (s.smoother v).numSteps →
    ∃ a b, exec (.svSettarget v t) s = .next a ∧ repeated (s.smoother v).numSteps (.svNext v) a = .next b ∧
      b.wires = [t] ∧ (b.smoother v).current = t ∧ (b.smoother v).target = t ∧ (b.smoother v).stepsRemaining = 0 ∧
      exec (.svNext v) b = .next b

/-! ## Delay lines -/

/-- DL.SIZE and DL.CLEAR (43_delay_line.md R190, R191): SIZE changes the capacity only; CLEAR zeroes the words below the
capacity and the position. -/
def Obligations.DlSizeClear : Prop :=
  ∀ (s : State) (d : DelayId) (tmax : F32) (guard : Nat) (sr : F32),
    exec (.dlSize d tmax guard sr) s =
      .next (s.setDelay d { s.delay d with cap := ceilNat (fMul tmax sr) + guard }) ∧
    ∃ t, exec (.dlClear d) s = .next t ∧ t = s.setDelay d (t.delay d) ∧ (t.delay d).writePos = 0 ∧
      (t.delay d).cap = (s.delay d).cap ∧
      ∀ ch i, (t.delay d).get ch i = if i < (s.delay d).cap then 0 else (s.delay d).get ch i

/-- DL.WRITE and DL.ADVANCE (R192, R195) on a sized memory: WRITE stores the pair at the position and nothing else,
ADVANCE moves the position modulo the capacity and nothing else. A memory without a size stops the model (log 17). -/
def Obligations.DlWriteAdvance : Prop :=
  ∀ (s : State) (d : DelayId) (vL vR : F32),
    ((s.delay d).cap ≠ 0 →
      (∃ t, exec (.dlWrite d vL vR) s = .next t ∧ t = s.setDelay d (t.delay d) ∧
        (t.delay d).writePos = (s.delay d).writePos ∧ (t.delay d).cap = (s.delay d).cap ∧
        ∀ ch i, (t.delay d).get ch i =
          if i = (s.delay d).writePos then (match ch with | .left => vL | .right => vR) else (s.delay d).get ch i) ∧
      exec (.dlAdvance d) s =
        .next (s.setDelay d { s.delay d with writePos := ((s.delay d).writePos + 1) % (s.delay d).cap })) ∧
    ((s.delay d).cap = 0 →
      exec (.dlWrite d vL vR) s = .fault .delayUnsized ∧ exec (.dlAdvance d) s = .fault .delayUnsized)

/-- DL.READI and DL.READF (R193, R194) on a sized memory: the results, and no state change but the wires (log 5). -/
def Obligations.DlTaps : Prop :=
  ∀ (s : State) (d : DelayId) (lag : Nat) (ch : Channel) (t : F32),
    ((s.delay d).cap ≠ 0 →
      exec (.dlReadi d lag) s =
        .next (s.setWires [tapRule (s.delay d) .left lag, tapRule (s.delay d) .right lag]) ∧
      exec (.dlReadf d ch t) s = .next (s.setWires [fracRule (s.delay d) ch t])) ∧
    ((s.delay d).cap = 0 →
      exec (.dlReadi d lag) s = .fault .delayUnsized ∧ exec (.dlReadf d ch t) s = .fault .delayUnsized)

/-- The round trip of R197: a pair written and then followed by `k - 1` further write-advance pairs, `1 <= k <= cap`, is
read back bit for bit at lag `k`. -/
def Obligations.DelayRoundTrip : Prop :=
  ∀ (s : State) (d : DelayId) (v : F32 × F32) (vs : List (F32 × F32)),
    (s.delay d).writePos < (s.delay d).cap → vs.length + 1 ≤ (s.delay d).cap →
    ∃ t, pushed d (v :: vs) s = .next t ∧ (t.delay d).writePos < (t.delay d).cap ∧
      exec (.dlReadi d (vs.length + 1)) t = .next (t.setWires [v.1, v.2])

/-! ## Primitives -/

/-- HARDCLIP, XFMR_SAT, SOFTCLIP, EMBER_SHAPE, QUANT, RECTIFY (44_primitives.md R205 to R209, R217): each answers the
expression of its rule on the result wires (log 5) and changes nothing else; a subnormal operand is read as zero
(log 10). -/
def Obligations.ShaperOps : Prop :=
  ∀ (s : State) (x nb : F32),
    exec (.hardclip x) s = .next (s.setWires [clipRule x]) ∧ exec (.xfmrSat x) s = .next (s.setWires [xfmrRule x]) ∧
    exec (.softclip x) s = .next (s.setWires [softRule x]) ∧ exec (.emberShape x) s = .next (s.setWires [emberRule x]) ∧
    exec (.quant x nb) s = .next (s.setWires [quantRule x nb]) ∧ exec (.rectify x) s = .next (s.setWires [dAbs x])

/-- LFO.ADVANCE, LFO.SINE, LFO.TRI (R210, R211, R212). -/
def Obligations.Oscillators : Prop :=
  ∀ (s : State) (p rate sr : F32),
    exec (.lfoAdvance p rate sr) s = .next (s.setWires [lfoRule p rate sr]) ∧
    exec (.lfoSine p) s = .next (s.setWires [sineRule p]) ∧ exec (.lfoTri p) s = .next (s.setWires [triRule p])

/-- ENV.COEF, ENV.STEP, GATE (R213, R214). -/
def Obligations.EnvelopeGate : Prop :=
  ∀ (s : State) (t sr env lvl ca cr : F32),
    exec (.envCoef t sr) s = .next (s.setWires [envCoefRule t sr]) ∧
    exec (.envStep env lvl ca cr) s = .next (s.setWires [envRule env lvl ca cr]) ∧
    exec (.gate env) s = .next (s.setWires [gateRule env])

/-- METER.UPDATE, DB2LIN, XFADE (R215, R216, R218). -/
def Obligations.MeterGainFade : Prop :=
  ∀ (s : State) (k : MeterId) (pk o dry wet m : F32),
    exec (.meterUpdate k pk) s = .next (s.setMeter k (meterRule (s.meter k) pk)) ∧
    exec (.db2lin o) s = .next (s.setWires [gainRule o]) ∧
    exec (.xfade dry wet m) s = .next (s.setWires [xf dry wet m])

/-- The ranges of the shapers (R205, R206, R207): on finite operands HARDCLIP, XFMR_SAT and SOFTCLIP answer a number in
[-1, 1]. -/
def Obligations.ShaperBounds : Prop :=
  ∀ (s : State) (x : F32), isFin x = true → ∀ i ∈ [Instr.hardclip x, .xfmrSat x, .softclip x],
    ∃ t y, exec i s = .next t ∧ t.wires = [y] ∧ fLe kn1 y = true ∧ fLe y k1 = true

/-! ## Units -/

/-- One processed frame of each Cathode unit, after its block start (45_units_cathode.md R230, R234 to R238, R240): the
buffer's frame, the unit's registers, and nothing else. -/
def Obligations.CathodeFrames : Prop :=
  ∀ (s : State) (l r m : F32),
    (frameAt .ember s l r m → exec (.unitEmber 1) s = .next (emberFrame s 0 l r m)) ∧
    (frameAt .velvet s l r m → exec (.unitVelvet 1) s = .next (velvetFrame (blockStarted .velvet s) 0 l r m)) ∧
    (frameAt .drift s l r m → s.units.drift.d.cap ≠ 0 → exec (.unitDrift 1) s = .next (driftFrame s 0 l r m)) ∧
    (frameAt .echo s l r m → s.units.echo.d.cap ≠ 0 → exec (.unitEcho 1) s = .next (echoFrame s 0 l r m)) ∧
    (frameAt .haze s l r m → s.units.haze.combA.cap ≠ 0 → s.units.haze.combB.cap ≠ 0 →
      exec (.unitHaze 1) s = .next (hazeFrame s 0 l r m))

/-- One processed frame of each Filament unit (46_units_filament.md R250 to R254). -/
def Obligations.FilamentFrames : Prop :=
  ∀ (s : State) (l r m : F32),
    (frameAt .fracture s l r m → exec (.unitFracture 1) s = .next (fractureFrame s 0 l r m)) ∧
    (frameAt .prism s l r m → exec (.unitPrism 1) s = .next (prismFrame s 0 l r m)) ∧
    (frameAt .phase s l r m → s.units.phase.d.cap ≠ 0 → exec (.unitPhase 1) s = .next (phaseFrame s 0 l r m)) ∧
    (frameAt .cascade s l r m → s.units.cascade.d.cap ≠ 0 → exec (.unitCascade 1) s = .next (cascadeFrame s 0 l r m)) ∧
    (frameAt .glisten s l r m → s.units.glisten.main.cap ≠ 0 → s.units.glisten.shim.cap ≠ 0 →
      exec (.unitGlisten 1) s = .next (glistenFrame s 0 l r m))

/-- One processed frame of each Steel unit (47_units_steel.md R265 to R269). -/
def Obligations.SteelFrames : Prop :=
  ∀ (s : State) (l r m : F32),
    (frameAt .scorch s l r m → exec (.unitScorch 1) s = .next (scorchFrame s 0 l r m)) ∧
    (frameAt .snarl s l r m → exec (.unitSnarl 1) s = .next (snarlFrame (blockStarted .snarl s) 0 l r m)) ∧
    (frameAt .shred s l r m → exec (.unitShred 1) s = .next (shredFrame s 0 l r m)) ∧
    (frameAt .grind s l r m → s.units.grind.d.cap ≠ 0 → exec (.unitGrind 1) s = .next (grindFrame s 0 l r m)) ∧
    (frameAt .rust s l r m → s.units.rust.combA.cap ≠ 0 → s.units.rust.combB.cap ≠ 0 →
      exec (.unitRust 1) s = .next (rustFrame s 0 l r m))

/-- UNIT.PROCESS runs over any block its unit is ready for (45_units_cathode.md R230), by its tag or by name: it changes
the unit's registers and the first `n` frames only, every other unit and every frame from `n` up keep their words. -/
def Obligations.UnitsComplete : Prop :=
  (∀ (s : State) (u : UnitId) (n : Word), unitReady u n.toNat s →
    ∃ t, exec (unitInstr u n) s = .next t ∧ exec (.unitProcess u n) s = .next t ∧
      { t with units := s.units, buf := s.buf } = s ∧ (∀ u', u' ≠ u → sameUnit s t u') ∧
      (∀ ch i, n.toNat ≤ i → t.buf.get? ch i = s.buf.get? ch i) ∧ unitReady u n.toNat t) ∧
  (∀ (s : State) (u : UnitId), exec (unitInstr u 0) s = .next (blockStarted u s))

/-- A unit whose mix stays below the threshold over the block, idle or still ramping, advances its mix once a frame and
changes no frame and no other register, but for the block-start coefficients of Velvet and Snarl (R230, R233, R239); an
idle mix does not move. -/
def Obligations.SilentUnitsRest : Prop :=
  ∀ (s : State) (u : UnitId) (n : Word),
    ((∀ k, 1 ≤ k → k ≤ n.toNat → dLt (advanced k (s.smoother (.mix u))).current mixSilence = true) →
      exec (unitInstr u n) s =
        .next ((blockStarted u s).setSmoother (.mix u) (advanced n.toNat (s.smoother (.mix u)))) ∧
      ((blockStarted u s).setSmoother (.mix u) (advanced n.toNat (s.smoother (.mix u)))).buf = s.buf) ∧
    ((s.smoother (.mix u)).stepsRemaining = 0 → dLt (s.smoother (.mix u)).current mixSilence = true →
      exec (unitInstr u n) s = .next (blockStarted u s) ∧ (blockStarted u s).buf = s.buf)

/-- A block is its frames in order (40_host_commands.md R135, 45_units_cathode.md R230, R233, 48_preamp.md R280): a unit's
code over `n` frames is its block start once, then frames 0 to n - 1; PREAMP over `n` frames is frames 0 to n - 1. Each
frame reads the state the one before it left. -/
def Obligations.BlocksAreTheirFrames : Prop :=
  (∀ (s : State) (u : UnitId) (n : Word), unitReady u n.toNat s →
    exec (unitInstr u n) s = .next ((List.range n.toNat).foldl (unitFrame u) (blockStarted u s))) ∧
  (∀ (s : State) (n : Word), n.toNat ≤ 8192 → framesHeld s.buf n.toNat →
    exec (.preamp n) s = .next ((List.range n.toNat).foldl preampFrame s))

/-- UNIT.SETMIX, UNIT.PREPARE, UNIT.RESET (R231, R232): SETMIX is SV.SETTARGET of the unit's mix; PREPARE is the units'
part of SIZE followed by that of RESET_STATE (log 19); RESET the units' part of RESET_STATE. -/
def Obligations.UnitMixAndReset : Prop :=
  ∀ s : State,
    (∀ u v, exec (.unitSetmix u v) s = .next (s.setSmoother (.mix u) (settargetRule (s.smoother (.mix u)) v))) ∧
    (∃ a b c, exec .size s = .next a ∧ exec .resetState a = .next b ∧ exec .resetState s = .next c ∧
      exec .unitPrepare s = .next { s with units := b.units } ∧ exec .unitReset s = .next { s with units := c.units })

/-! ## The preamp -/

/-- One frame of PREAMP (48_preamp.md R280). -/
def Obligations.PreampFrame : Prop :=
  ∀ (s : State) (l r : F32), s.buf.get? .left 0 = some l → s.buf.get? .right 0 = some r →
    exec (.preamp 1) s = .next (preampFrame s 0)

/-- PREAMP runs over any block that exists and holds values, and changes the preamp and the first `n` frames only (R280);
PREAMP.SETSHELF sets both shelves from one tone value (R282). -/
def Obligations.PreampCompletes : Prop :=
  (∀ (s : State) (n : Word), n.toNat ≤ 8192 → framesHeld s.buf n.toNat →
    ∃ t, exec (.preamp n) s = .next t ∧ { t with pre := s.pre, buf := s.buf } = s ∧
      coefsOf t.pre.dcL = coefsOf s.pre.dcL ∧ coefsOf t.pre.dcR = coefsOf s.pre.dcR ∧
      (∀ ch i, n.toNat ≤ i → t.buf.get? ch i = s.buf.get? ch i) ∧ framesHeld t.buf n.toNat) ∧
  (∀ (s : State) (tn : F32), exec (.preampSetshelf tn) s = .next
    ((s.setFilter .shelfL (withCoefs s.pre.shelfL (shelfCoefs tn s.sr))).setFilter .shelfR
      (withCoefs s.pre.shelfR (shelfCoefs tn s.sr))))

/-! ## Internal sequences -/

/-- APPLY_PARAMS (40_host_commands.md R142): every smoother takes SV.SETTARGET with its holder's value, `family` follows
its holder, nothing else changes; and PROCESS's latch is APPLY_PARAMS, with RESET_STATE when the bypass value changed
(R135). -/
def Obligations.LatchSequence : Prop :=
  ∀ s : State, ∃ a b, exec .applyParams s = .next a ∧
    (∀ v, a.smoother v = settargetRule (s.smoother v) (latchTarget s.holders v)) ∧
    a.family = familyOf s.holders.preampType ∧ smoothersFrom s { a with family := s.family } = s ∧
    exec .resetState a = .next b ∧
    latched s = if (s.holders.bypass != 0) = s.bypassPrev then a else { b with bypassPrev := s.holders.bypass != 0 }

/-- RESET_STATE (R143). -/
def Obligations.ResetSequence : Prop :=
  ∀ s : State, ∃ t, exec .resetState s = .next t ∧ neutral t ∧ keptByReset s t ∧
    { t with pre := s.pre, units := s.units, meters := s.meters } = s

/-- SIZE (R144): every prepare-time constant, and nothing else. -/
def Obligations.SizeSequence : Prop :=
  ∀ s : State, ∃ t, exec .size s = .next t ∧ sized t ∧ keptBySize s t ∧ { t with pre := s.pre, units := s.units } = s

/-! ## Invariants of every step -/

/-- Memory stays canonical and no cursor leaves its memory, at every step (10_state.md R48, 43_delay_line.md R197). -/
def Obligations.MemoryInvKept : Prop := ∀ s t, MemoryInv s → step s = .next t → MemoryInv t

/-- Every smoother stays idle at its target or within its ramp, at every step (10_state.md R48, 41_smoother.md R160). -/
def Obligations.SmootherInvKept : Prop := ∀ s t, SmootherInv s → step s = .next t → SmootherInv t

/-- Every holder keeps a legal value, and a prepared block a legal length, at every step (10_state.md R48, R32, R33). -/
def Obligations.HolderInvKept : Prop := ∀ s t, HolderInv s → step s = .next t → HolderInv t

/-- Every meter register stays a number that is not negative, at every step (10_state.md R48, 44_primitives.md R215). -/
def Obligations.MeterInvKept : Prop := ∀ s t, MeterInv s → step s = .next t → MeterInv t

/-- Every phase stays in [0, 1) and Grind's counter in [0, 7] (10_state.md R48, 44_primitives.md R210, 47_units_steel.md
R268), at every step during which the mixes of Shred and Grind stay below 8/7: R48 gives the ranges without that
condition, which the rounding of R165 makes necessary (log 31). -/
def Obligations.PhaseCounterInvKept : Prop :=
  ∀ s t, PhaseCounterInv s → mixBelow .shred s → mixBelow .grind s → step s = .next t → PhaseCounterInv t

/-- The six invariants hold after power-on reset (10_state.md R49; of the registers R49 leaves unspecified, logs 16 and
18 name the value). -/
def Obligations.InvariantsAtReset : Prop :=
  MemoryInv State.reset ∧ SmootherInv State.reset ∧ HolderInv State.reset ∧ PairInv State.reset ∧ MeterInv State.reset ∧
    PhaseCounterInv State.reset

end
end

