-- ==== Sys2Proof/Laws/Calc.lean ====
section
/-! SUPPORT. Every computation of the model only adds marks: run from marks `m` it gives the value it gives from no marks,
and `m` joined with the marks it leaves from none. With that law the value and the marks of a sequence are those of its
parts. -/

namespace Sys2Proof.Machine

open Sys2Proof

/-- The marks of both. -/
def Marks.join (a b : Marks) : Marks :=
  { nonFinite := a.nonFinite || b.nonFinite, unwritten := a.unwritten || b.unwritten, range := a.range || b.range,
    unsized := a.unsized || b.unsized }

@[simp] theorem Marks.join_empty (a : Marks) : a.join {} = a := by simp [Marks.join]
@[simp] theorem Marks.empty_join (a : Marks) : Marks.join {} a = a := by simp [Marks.join]

theorem Marks.join_assoc (a b c : Marks) : (a.join b).join c = a.join (b.join c) := by
  simp [Marks.join, Bool.or_assoc]

theorem Marks.join_eq_empty {a b : Marks} : a.join b = {} ↔ a = {} ∧ b = {} := by
  cases a; cases b; simp [Marks.join]; tauto

/-- A computation that only adds marks. -/
def Writer {α : Type} (c : Calc α) : Prop := ∀ m, c m = (valueOf c, m.join (marksOf c))

theorem Writer.value {α : Type} {c : Calc α} (h : Writer c) (m : Marks) : (c m).1 = valueOf c := by rw [h m]

theorem Writer.marks {α : Type} {c : Calc α} (h : Writer c) (m : Marks) : (c m).2 = m.join (marksOf c) := by rw [h m]

@[simp] theorem valueOf_pure {α : Type} (a : α) : valueOf (pure a : Calc α) = a := rfl
@[simp] theorem marksOf_pure {α : Type} (a : α) : marksOf (pure a : Calc α) = {} := rfl

theorem Writer.pure {α : Type} (a : α) : Writer (pure a : Calc α) := fun m => by
  show (a, m) = (a, m.join {})
  rw [Marks.join_empty]

/-- The value of a sequence. -/
theorem valueOf_bind {α β : Type} (c : Calc α) {f : α → Calc β} (hf : ∀ a, Writer (f a)) :
    valueOf (c >>= f) = valueOf (f (valueOf c)) := (hf _).value _

/-- The marks of a sequence. -/
theorem marksOf_bind {α β : Type} (c : Calc α) {f : α → Calc β} (hf : ∀ a, Writer (f a)) :
    marksOf (c >>= f) = (marksOf c).join (marksOf (f (valueOf c))) := (hf _).marks _

theorem Writer.bind {α β : Type} {c : Calc α} {f : α → Calc β} (hc : Writer c) (hf : ∀ a, Writer (f a)) :
    Writer (c >>= f) := fun m => by
  have h : (c >>= f) m = f (c m).1 (c m).2 := rfl
  rw [h, hf _, valueOf_bind c hf, marksOf_bind c hf, hc m, Marks.join_assoc]

theorem Writer.ite {α : Type} {p : Prop} [Decidable p] {a b : Calc α} (ha : Writer a) (hb : Writer b) :
    Writer (if p then a else b) := by split <;> assumption

theorem writer_note (r : F32) : Writer (note r) := fun m => by simp [note, valueOf, marksOf, Marks.join, StateT.run]

@[simp] theorem valueOf_note (r : F32) : valueOf (note r) = r := rfl
@[simp] theorem marksOf_note (r : F32) : marksOf (note r) = { nonFinite := !isFin r } := by
  simp [note, marksOf, StateT.run]

theorem writer_cAdd (a b : F32) : Writer (cAdd a b) := writer_note _
theorem writer_cSub (a b : F32) : Writer (cSub a b) := writer_note _
theorem writer_cMul (a b : F32) : Writer (cMul a b) := writer_note _
theorem writer_cDiv (a b : F32) : Writer (cDiv a b) := writer_note _
theorem writer_cSqrt (a : F32) : Writer (cSqrt a) := writer_note _

@[simp] theorem valueOf_cAdd (a b : F32) : valueOf (cAdd a b) = fAdd a b := rfl
@[simp] theorem valueOf_cSub (a b : F32) : valueOf (cSub a b) = fSub a b := rfl
@[simp] theorem valueOf_cMul (a b : F32) : valueOf (cMul a b) = fMul a b := rfl
@[simp] theorem valueOf_cDiv (a b : F32) : valueOf (cDiv a b) = fDiv a b := rfl
@[simp] theorem valueOf_cSqrt (a : F32) : valueOf (cSqrt a) = fSqrt a := rfl

@[simp] theorem marksOf_cAdd (a b : F32) : marksOf (cAdd a b) = { nonFinite := !isFin (fAdd a b) } := marksOf_note _
@[simp] theorem marksOf_cSub (a b : F32) : marksOf (cSub a b) = { nonFinite := !isFin (fSub a b) } := marksOf_note _
@[simp] theorem marksOf_cMul (a b : F32) : marksOf (cMul a b) = { nonFinite := !isFin (fMul a b) } := marksOf_note _
@[simp] theorem marksOf_cDiv (a b : F32) : marksOf (cDiv a b) = { nonFinite := !isFin (fDiv a b) } := marksOf_note _
@[simp] theorem marksOf_cSqrt (a : F32) : marksOf (cSqrt a) = { nonFinite := !isFin (fSqrt a) } := marksOf_note _

theorem writer_needSize (c : Nat) : Writer (needSize c) := fun m => by
  simp [needSize, valueOf, marksOf, Marks.join, StateT.run]

@[simp] theorem marksOf_needSize (c : Nat) : marksOf (needSize c) = { unsized := c == 0 } := by
  simp [needSize, marksOf, StateT.run]

theorem writer_bufRead (b : SampleBuffer) (ch : Channel) (i : Nat) : Writer (bufRead b ch i) := fun m => by
  unfold bufRead valueOf marksOf StateT.run Marks.join
  dsimp only
  split
  · simp
  · split <;> simp

/-- What a read of the sample buffer by a stage gives. -/
theorem valueOf_bufRead {b : SampleBuffer} {ch : Channel} {i : Nat} {w : Word} (hi : i < Config.maxblkMax)
    (h : b.get? ch i = some w) : valueOf (bufRead b ch i) = w := by
  simp [bufRead, valueOf, StateT.run, h, Nat.not_le.mpr hi]

/-- The marks a read of the sample buffer by a stage leaves. -/
theorem marksOf_bufRead {b : SampleBuffer} {ch : Channel} {i : Nat} {w : Word} (hi : i < Config.maxblkMax)
    (h : b.get? ch i = some w) : marksOf (bufRead b ch i) = { nonFinite := !isFin w } := by
  simp [bufRead, marksOf, StateT.run, h, Nat.not_le.mpr hi]

theorem marksOf_bufRead_range {b : SampleBuffer} {ch : Channel} {i : Nat} (hi : Config.maxblkMax ≤ i) :
    (marksOf (bufRead b ch i)).range = true := by
  simp [bufRead, marksOf, StateT.run, hi]

/-! ## The ends of an operation -/

/-- Everything `finishOp` can answer. -/
theorem finishOp_cases (c : Calc State) :
    (finishOp c = .fault .bufferRange ∧ (marksOf c).range = true) ∨
    (finishOp c = .fault .delayUnsized ∧ (marksOf c).unsized = true) ∨
    (finishOp c = .refused .unwrittenWord ∧ (marksOf c).unwritten = true) ∨
    (finishOp c = .next (valueOf c) ∧ (marksOf c).range = false ∧ (marksOf c).unsized = false ∧
      (marksOf c).unwritten = false) := by
  unfold finishOp marksOf valueOf
  split
  rename_i s m h
  simp only [h]
  cases m with
  | mk a b c d => cases b <;> cases c <;> cases d <;> simp

/-- Everything `finishBlock` can answer. -/
theorem finishBlock_cases (c : Calc State) :
    (finishBlock c = .fault .bufferRange ∧ (marksOf c).range = true) ∨
    (finishBlock c = .fault .delayUnsized ∧ (marksOf c).unsized = true) ∨
    (finishBlock c = .refused .unwrittenWord ∧ (marksOf c).unwritten = true) ∨
    (finishBlock c = .refused .nonFinite ∧ (marksOf c).nonFinite = true) ∨
    (finishBlock c = .next (valueOf c) ∧ marksOf c = {}) := by
  unfold finishBlock marksOf valueOf
  split
  rename_i s m h
  simp only [h]
  cases m with
  | mk a b c d => cases a <;> cases b <;> cases c <;> cases d <;> simp

theorem finishOp_next {c : Calc State} {t : State} (h : finishOp c = .next t) :
    t = valueOf c ∧ (marksOf c).range = false ∧ (marksOf c).unsized = false ∧ (marksOf c).unwritten = false := by
  rcases finishOp_cases c with ⟨e, -⟩ | ⟨e, -⟩ | ⟨e, -⟩ | ⟨e, hm⟩ <;> rw [e] at h
  · cases h
  · cases h
  · cases h
  · cases h; exact ⟨rfl, hm⟩

theorem finishOp_of_marks {c : Calc State} (hr : (marksOf c).range = false) (hu : (marksOf c).unsized = false)
    (hw : (marksOf c).unwritten = false) : finishOp c = .next (valueOf c) := by
  rcases finishOp_cases c with ⟨-, e⟩ | ⟨-, e⟩ | ⟨-, e⟩ | ⟨e, -⟩
  · simp [hr] at e
  · simp [hu] at e
  · simp [hw] at e
  · exact e

theorem finishBlock_next {c : Calc State} {t : State} (h : finishBlock c = .next t) :
    t = valueOf c ∧ marksOf c = {} := by
  rcases finishBlock_cases c with ⟨e, -⟩ | ⟨e, -⟩ | ⟨e, -⟩ | ⟨e, -⟩ | ⟨e, hm⟩ <;> rw [e] at h
  · cases h
  · cases h
  · cases h
  · cases h
  · cases h; exact ⟨rfl, hm⟩

theorem finishBlock_of_clean {c : Calc State} (h : marksOf c = {}) : finishBlock c = .next (valueOf c) := by
  rcases finishBlock_cases c with ⟨-, e⟩ | ⟨-, e⟩ | ⟨-, e⟩ | ⟨-, e⟩ | ⟨e, -⟩
  · simp [h] at e
  · simp [h] at e
  · simp [h] at e
  · simp [h] at e
  · exact e

end Sys2Proof.Machine
end

