-- ==== Sys2Proof/Laws/Memory.lean ====
section
/-! SUPPORT. The laws of the word memories (Machine/Memory.lean, Machine/Delay.lean): read after write, every other word
unchanged, and every operation keeps the canonical form, which the memories have after power-on. -/

namespace Sys2Proof.Machine

open Sys2Proof

/-! ## One array -/

@[simp] theorem Words.get?_put (w : Words) (k : Nat) (x : Word) : (w.put k x).get? k = some x := by
  induction w with
  | nil => simp [Words.put, Words.get?]
  | cons c t ih =>
    obtain ⟨a, v⟩ := c
    unfold Words.put
    split
    · simp [Words.get?]
    · split
      · simp [Words.get?]
      · rename_i h
        simp [Words.get?, ih, Ne.symm h]

theorem Words.get?_put_ne (w : Words) {k j : Nat} (x : Word) (h : j ≠ k) : (w.put k x).get? j = w.get? j := by
  induction w with
  | nil => simp [Words.put, Words.get?, h.symm]
  | cons c t ih =>
    obtain ⟨a, v⟩ := c
    unfold Words.put
    split
    · simp [Words.get?, h.symm]
    · split
      · subst_vars; simp [Words.get?, h.symm]
      · simp [Words.get?, ih]

@[simp] theorem Words.get?_filter (w : Words) (p : Nat → Bool) (k : Nat) :
    Words.get? (w.filter fun c => p c.1) k = if p k then w.get? k else none := by
  induction w with
  | nil => simp [Words.get?]
  | cons c t ih =>
    obtain ⟨a, v⟩ := c
    by_cases hp : p a = true
    · simp only [List.filter_cons, hp, if_true, Words.get?, ih]
      split
      · subst_vars; simp [hp]
      · rfl
    · have hf : ((a, v) :: t).filter (fun c => p c.1) = t.filter fun c => p c.1 := by simp [hp]
      rw [hf, ih]
      by_cases hk : a = k
      · subst hk; simp [hp]
      · simp [Words.get?, hk]

theorem Words.sorted_iff (w : Words) : w.sorted = true ↔ w.Pairwise (fun c d => c.1 < d.1) := by
  induction w with
  | nil => simp [Words.sorted]
  | cons c t ih =>
    cases t with
    | nil => simp [Words.sorted]
    | cons d t =>
      simp only [Words.sorted, Bool.and_eq_true, decide_eq_true_eq, ih, List.pairwise_cons]
      constructor
      · rintro ⟨h, hd, ht⟩
        refine ⟨fun e he => ?_, hd, ht⟩
        rcases List.mem_cons.mp he with rfl | he
        · exact h
        · exact lt_trans h (hd e he)
      · rintro ⟨h, hd, ht⟩
        exact ⟨h d (List.mem_cons_self ..), hd, ht⟩

theorem Words.mem_put {w : Words} {k : Nat} {x : Word} {c : Nat × Word} (h : c ∈ w.put k x) : c = (k, x) ∨ c ∈ w := by
  induction w with
  | nil => simpa [Words.put] using h
  | cons d t ih =>
    obtain ⟨a, v⟩ := d
    unfold Words.put at h
    split at h
    · simpa using h
    · split at h
      · rcases List.mem_cons.mp h with h | h
        · exact .inl h
        · exact .inr (List.mem_cons_of_mem _ h)
      · rcases List.mem_cons.mp h with h | h
        · exact .inr (h ▸ List.mem_cons_self ..)
        · exact (ih h).imp_right (List.mem_cons_of_mem _)

theorem Words.sorted_put {w : Words} (k : Nat) (x : Word) (h : w.sorted = true) : (w.put k x).sorted = true := by
  rw [Words.sorted_iff] at h ⊢
  induction w with
  | nil => simp [Words.put]
  | cons d t ih =>
    obtain ⟨a, v⟩ := d
    obtain ⟨ha, ht⟩ := List.pairwise_cons.mp h
    unfold Words.put
    split
    · rename_i hk
      refine List.pairwise_cons.mpr ⟨fun e he => ?_, h⟩
      rcases List.mem_cons.mp he with rfl | he
      · exact hk
      · exact lt_trans hk (ha e he)
    · split
      · subst_vars; exact List.pairwise_cons.mpr ⟨ha, ht⟩
      · refine List.pairwise_cons.mpr ⟨fun e he => ?_, ih ht⟩
        rcases Words.mem_put he with rfl | he
        · show a < k; omega
        · exact ha e he

theorem Words.sorted_filter {w : Words} (p : Nat × Word → Bool) (h : w.sorted = true) :
    Words.sorted (w.filter p) = true := by
  rw [Words.sorted_iff] at h ⊢
  exact h.filter _

/-! ## A delay memory's words -/

@[simp] theorem Words.dlyGet_dlySet (w : Words) (k : Nat) (x : F32) : (w.dlySet k x).dlyGet k = x := by
  unfold Words.dlySet Words.dlyGet
  split
  · subst_vars; simp [Words.del, Words.get?_filter w (fun a => a != k) k]
  · simp

theorem Words.dlyGet_dlySet_ne (w : Words) {k j : Nat} (x : F32) (h : j ≠ k) :
    (w.dlySet k x).dlyGet j = w.dlyGet j := by
  unfold Words.dlySet Words.dlyGet
  split
  · simp [Words.del, Words.get?_filter w (fun a => a != k) j, h]
  · simp [Words.get?_put_ne w x h]

@[simp] theorem Words.dlyGet_dlyClear (w : Words) (cap k : Nat) :
    (w.dlyClear cap).dlyGet k = if k < cap then 0 else w.dlyGet k := by
  unfold Words.dlyClear Words.dlyGet
  rw [Words.get?_filter w (fun a => decide (cap ≤ a)) k]
  by_cases h : k < cap
  · simp [h, Nat.not_le.mpr h]
  · simp [h, Nat.not_lt.mp h]

theorem Words.dlyWf_dlySet {w : Words} (k : Nat) (x : F32) (h : w.dlyWf = true) : (w.dlySet k x).dlyWf = true := by
  simp only [Words.dlyWf, Bool.and_eq_true, List.all_eq_true, bne_iff_ne, ne_eq] at h ⊢
  unfold Words.dlySet
  split
  · exact ⟨Words.sorted_filter _ h.1, fun c hc => h.2 c (List.mem_filter.mp hc).1⟩
  · refine ⟨Words.sorted_put _ _ h.1, fun c hc => ?_⟩
    rcases Words.mem_put hc with rfl | hc
    · assumption
    · exact h.2 c hc

theorem Words.dlyWf_dlyClear {w : Words} (cap : Nat) (h : w.dlyWf = true) : (w.dlyClear cap).dlyWf = true := by
  simp only [Words.dlyWf, Bool.and_eq_true, List.all_eq_true, bne_iff_ne, ne_eq] at h ⊢
  exact ⟨Words.sorted_filter _ h.1, fun c hc => h.2 c (List.mem_filter.mp hc).1⟩

/-! ## Delay memories -/

theorem DelayLine.wf_write {d : DelayLine} (vL vR : F32) (h : d.wf = true) : (d.write vL vR).wf = true := by
  simp only [DelayLine.wf, Bool.and_eq_true] at h ⊢
  exact ⟨Words.dlyWf_dlySet _ _ h.1, Words.dlyWf_dlySet _ _ h.2⟩

theorem DelayLine.wf_clear {d : DelayLine} (h : d.wf = true) : d.clear.wf = true := by
  simp only [DelayLine.wf, Bool.and_eq_true] at h ⊢
  exact ⟨Words.dlyWf_dlyClear _ h.1, Words.dlyWf_dlyClear _ h.2⟩

@[simp] theorem DelayLine.wf_advance (d : DelayLine) : d.advance.wf = d.wf := rfl

@[simp] theorem valueOf_dlSize (d : DelayLine) (t : F32) (g : Nat) (sr : F32) :
    valueOf (d.size t g sr) = { d with cap := ceilNat (fMul t sr) + g } := rfl

/-! ## The sample buffer -/

@[simp] theorem SampleBuffer.get?_set (b : SampleBuffer) (ch : Channel) (i : Nat) (v : Word) :
    (b.set ch i v).get? ch i = some v := by
  cases ch <;> simp [SampleBuffer.get?, SampleBuffer.set, SampleBuffer.chan]

theorem SampleBuffer.get?_set_index (b : SampleBuffer) (ch ch' : Channel) {i j : Nat} (v : Word) (h : j ≠ i) :
    (b.set ch i v).get? ch' j = b.get? ch' j := by
  cases ch <;> cases ch' <;>
    simp [SampleBuffer.get?, SampleBuffer.set, SampleBuffer.chan, Words.get?_put_ne _ _ h]

theorem SampleBuffer.get?_set_chan (b : SampleBuffer) {ch ch' : Channel} (i j : Nat) (v : Word) (h : ch' ≠ ch) :
    (b.set ch i v).get? ch' j = b.get? ch' j := by
  cases ch <;> cases ch' <;> first | rfl | exact absurd rfl h

theorem SampleBuffer.wf_set {b : SampleBuffer} (ch : Channel) {i : Nat} (v : Word) (hi : i < Config.maxblkMax)
    (h : b.wf = true) : (b.set ch i v).wf = true := by
  simp only [SampleBuffer.wf, Bool.and_eq_true, List.all_eq_true, decide_eq_true_eq] at h ⊢
  obtain ⟨⟨⟨hl, hr⟩, hla⟩, hra⟩ := h
  cases ch
  · refine ⟨⟨⟨Words.sorted_put _ _ hl, hr⟩, fun c hc => ?_⟩, hra⟩
    rcases Words.mem_put hc with rfl | hc
    · exact hi
    · exact hla c hc
  · refine ⟨⟨⟨hl, Words.sorted_put _ _ hr⟩, hla⟩, fun c hc => ?_⟩
    rcases Words.mem_put hc with rfl | hc
    · exact hi
    · exact hra c hc

/-- A frame written is held; a held word stays held. -/
theorem SampleBuffer.held_set (b : SampleBuffer) (ch ch' : Channel) (i j : Nat) (v : Word) (h : b.get? ch' j ≠ none) :
    (b.set ch i v).get? ch' j ≠ none := by
  by_cases hj : j = i
  · by_cases hc : ch' = ch
    · subst hj hc; simp
    · rw [SampleBuffer.get?_set_chan _ _ _ _ hc]; exact h
  · rw [SampleBuffer.get?_set_index _ _ _ _ hj]; exact h

/-! ## The whole state -/

/-- The memories are in canonical form after power-on. -/
theorem Memory.wf_reset : Memory.wf State.reset = true := by decide

/-- The canonical form depends on the buffer and the units' memories only. -/
theorem Memory.wf_congr {s t : State} (hb : t.buf = s.buf) (hu : t.units = s.units) : Memory.wf t = Memory.wf s := by
  simp only [Memory.wf, hb, hu]

/-- The canonical form, memory by memory. -/
theorem Memory.wf_iff (s : State) : Memory.wf s = true ↔ s.buf.wf = true ∧ ∀ d, (s.delay d).wf = true := by
  constructor
  · intro h
    simp only [Memory.wf, Bool.and_eq_true] at h
    refine ⟨by tauto, fun d => ?_⟩
    cases d <;> simp only [State.delay] <;> tauto
  · rintro ⟨hb, hd⟩
    simp only [Memory.wf, Bool.and_eq_true]
    exact ⟨⟨⟨⟨⟨⟨⟨⟨⟨⟨⟨hb, hd .drift⟩, hd .echo⟩, hd .hazeA⟩, hd .hazeB⟩, hd .phase⟩, hd .cascade⟩, hd .glistenM⟩,
      hd .glistenS⟩, hd .grind⟩, hd .rustA⟩, hd .rustB⟩

end Sys2Proof.Machine
end

