-- ==== Sys2Proof/Laws/Writers.lean ====
section
/-! SUPPORT. The writer law (Laws/Calc.lean) of every computation of the model, by its parts: a computation's marks only
add up, and its value does not depend on the marks it starts from. -/

namespace Sys2Proof.Machine

open Sys2Proof

/-! ## Smoothers, filters, delay lines -/

theorem writer_rampSteps (t sr : F32) : Writer (rampSteps t sr) := by
  unfold rampSteps
  repeat' with_reducible first | exact Writer.pure _ | exact writer_cMul _ _ | refine Writer.bind ?_ fun _ => ?_

theorem writer_svReset (v : Smoother) (sr t : F32) : Writer (v.reset sr t) := by
  unfold Smoother.reset
  repeat' with_reducible first | exact Writer.pure _ | exact writer_rampSteps _ _ | refine Writer.bind ?_ fun _ => ?_

theorem writer_setTarget (v : Smoother) (t : F32) : Writer (v.setTarget t) := by
  unfold Smoother.setTarget
  repeat' first
    | with_reducible first | exact Writer.pure _ | exact writer_cSub _ _ | exact writer_cDiv _ _ | refine Writer.bind ?_ fun _ => ?_
    | dsimp only
    | split

theorem writer_next (v : Smoother) : Writer (v.next) := by
  unfold Smoother.next
  repeat' first
    | with_reducible first | exact Writer.pure _ | exact writer_cAdd _ _ | refine Writer.bind ?_ fun _ => ?_
    | dsimp only
    | split

theorem writer_bqProcess (f : Biquad) (x : F32) : Writer (f.process x) := by
  unfold Biquad.process
  repeat' with_reducible first | exact Writer.pure _ | exact writer_cAdd _ _ | exact writer_cSub _ _ | exact writer_cMul _ _ | refine Writer.bind ?_ fun _ => ?_

theorem writer_rawLp (cs sn q : F32) : Writer (rawLp cs sn q) := by
  unfold rawLp
  repeat' with_reducible first | exact Writer.pure _ | exact writer_cAdd _ _ | exact writer_cSub _ _ | exact writer_cMul _ _ | exact writer_cDiv _ _ | refine Writer.bind ?_ fun _ => ?_

theorem writer_rawHp (cs sn q : F32) : Writer (rawHp cs sn q) := by
  unfold rawHp
  repeat' with_reducible first | exact Writer.pure _ | exact writer_cAdd _ _ | exact writer_cSub _ _ | exact writer_cMul _ _ | exact writer_cDiv _ _ | refine Writer.bind ?_ fun _ => ?_

theorem writer_rawBp (cs sn q : F32) : Writer (rawBp cs sn q) := by
  unfold rawBp
  repeat' with_reducible first | exact Writer.pure _ | exact writer_cAdd _ _ | exact writer_cSub _ _ | exact writer_cMul _ _ | exact writer_cDiv _ _ | refine Writer.bind ?_ fun _ => ?_

theorem writer_rawLs (cs sn q g : F32) : Writer (rawLs cs sn q g) := by
  unfold rawLs
  repeat' with_reducible first | exact Writer.pure _ | exact writer_cAdd _ _ | exact writer_cSub _ _ | exact writer_cMul _ _ | exact writer_cDiv _ _ | exact writer_cSqrt _ | refine Writer.bind ?_ fun _ => ?_

theorem writer_angle (fc sr : F32) : Writer (angle fc sr) := by
  unfold angle
  repeat' with_reducible first | exact Writer.pure _ | exact writer_cMul _ _ | exact writer_cDiv _ _ | refine Writer.bind ?_ fun _ => ?_

theorem writer_normalise (f : Biquad) (r : RawCoefs) : Writer (f.normalise r) := by
  unfold Biquad.normalise
  repeat' with_reducible first | exact Writer.pure _ | exact writer_cDiv _ _ | refine Writer.bind ?_ fun _ => ?_

theorem writer_setc (f : Biquad) (k : FilterKind) (fc q sr g : F32) : Writer (f.setc k fc q sr g) := by
  unfold Biquad.setc
  repeat' first
    | with_reducible first | exact Writer.pure _ | exact writer_angle _ _ | exact writer_note _ | exact writer_rawLp _ _ _ | exact writer_rawHp _ _ _ | exact writer_rawBp _ _ _ | exact writer_rawLs _ _ _ _ | exact writer_normalise _ _ | refine Writer.bind ?_ fun _ => ?_
    | dsimp only
    | split

theorem writer_delayCap (t : F32) (g : Nat) (sr : F32) : Writer (delayCap t g sr) := by
  unfold delayCap
  repeat' with_reducible first | exact Writer.pure _ | exact writer_cMul _ _ | refine Writer.bind ?_ fun _ => ?_

theorem writer_dlSize (d : DelayLine) (t : F32) (g : Nat) (sr : F32) : Writer (d.size t g sr) := by
  unfold DelayLine.size
  repeat' with_reducible first | exact Writer.pure _ | exact writer_delayCap _ _ _ | refine Writer.bind ?_ fun _ => ?_

theorem writer_readPos (d : DelayLine) (t : F32) : Writer (d.readPos t) := by
  unfold DelayLine.readPos
  repeat' first
    | with_reducible first | exact Writer.pure _ | exact writer_cSub _ _ | exact writer_cAdd _ _ | refine Writer.bind ?_ fun _ => ?_
    | dsimp only
    | split

theorem writer_readF (d : DelayLine) (ch : Channel) (t : F32) : Writer (d.readF ch t) := by
  unfold DelayLine.readF
  repeat' with_reducible first | exact Writer.pure _ | exact writer_readPos _ _ | exact writer_cSub _ _ | exact writer_cAdd _ _ | exact writer_cMul _ _ | refine Writer.bind ?_ fun _ => ?_

theorem writer_cReadI (d : DelayLine) (lag : Nat) : Writer (cReadI d lag) := by
  unfold cReadI
  repeat' with_reducible first | exact Writer.pure _ | exact writer_needSize _ | refine Writer.bind ?_ fun _ => ?_

theorem writer_cReadF (d : DelayLine) (ch : Channel) (t : F32) : Writer (cReadF d ch t) := by
  unfold cReadF
  repeat' with_reducible first | exact Writer.pure _ | exact writer_needSize _ | exact writer_readF _ _ _ | refine Writer.bind ?_ fun _ => ?_

theorem writer_cPush (d : DelayLine) (vL vR : F32) : Writer (cPush d vL vR) := by
  unfold cPush
  repeat' with_reducible first | exact Writer.pure _ | exact writer_needSize _ | refine Writer.bind ?_ fun _ => ?_

/-! ## Primitives -/

theorem writer_xfmrSat (x : F32) : Writer (xfmrSat x) := by
  unfold xfmrSat
  dsimp only
  repeat' first
    | with_reducible first | exact Writer.pure _ | exact writer_cAdd _ _ | exact writer_cSub _ _ | exact writer_cMul _ _ | refine Writer.bind ?_ fun _ => ?_
    | dsimp only
    | split

theorem writer_softclip (x : F32) : Writer (softclip x) := by
  unfold softclip
  repeat' first
    | with_reducible first | exact Writer.pure _ | exact writer_cMul _ _ | exact writer_note _ | refine Writer.bind ?_ fun _ => ?_
    | dsimp only
    | split

theorem writer_emberShape (x : F32) : Writer (emberShape x) := by
  unfold emberShape
  repeat' first
    | with_reducible first | exact Writer.pure _ | exact writer_cMul _ _ | exact writer_note _ | refine Writer.bind ?_ fun _ => ?_
    | dsimp only
    | split

theorem writer_quant (x nb : F32) : Writer (quant x nb) := by
  unfold quant
  repeat' with_reducible first | exact Writer.pure _ | exact writer_cMul _ _ | exact writer_note _ | exact writer_cSub _ _ | exact writer_cDiv _ _ | refine Writer.bind ?_ fun _ => ?_

theorem writer_lfoAdvance (p r sr : F32) : Writer (lfoAdvance p r sr) := by
  unfold lfoAdvance
  repeat' first
    | with_reducible first | exact Writer.pure _ | exact writer_cAdd _ _ | exact writer_cDiv _ _ | exact writer_cSub _ _ | refine Writer.bind ?_ fun _ => ?_
    | dsimp only
    | split

theorem writer_lfoSine (p : F32) : Writer (lfoSine p) := by
  unfold lfoSine
  repeat' with_reducible first | exact Writer.pure _ | exact writer_cMul _ _ | exact writer_note _ | refine Writer.bind ?_ fun _ => ?_

theorem writer_lfoTri (p : F32) : Writer (lfoTri p) := by
  unfold lfoTri
  repeat' first
    | with_reducible first | exact Writer.pure _ | exact writer_cMul _ _ | exact writer_cSub _ _ | refine Writer.bind ?_ fun _ => ?_
    | dsimp only
    | split

theorem writer_envCoef (t sr : F32) : Writer (envCoef t sr) := by
  unfold envCoef
  repeat' with_reducible first | exact Writer.pure _ | exact writer_cMul _ _ | exact writer_note _ | exact writer_cDiv _ _ | refine Writer.bind ?_ fun _ => ?_

theorem writer_envStep (e l a r : F32) : Writer (envStep e l a r) := by
  unfold envStep
  dsimp only
  repeat' with_reducible first | exact Writer.pure _ | exact writer_cMul _ _ | exact writer_cAdd _ _ | exact writer_cSub _ _ | refine Writer.bind ?_ fun _ => ?_

theorem writer_gate (e : F32) : Writer (gate e) := by
  unfold gate
  repeat' first
    | with_reducible first | exact Writer.pure _ | exact writer_cDiv _ _ | refine Writer.bind ?_ fun _ => ?_
    | dsimp only
    | split

theorem writer_meterNext (o pk : F32) : Writer (meterNext o pk) := by
  unfold meterNext
  repeat' with_reducible first | exact Writer.pure _ | exact writer_cMul _ _ | refine Writer.bind ?_ fun _ => ?_

theorem writer_db2lin (o : F32) : Writer (db2lin o) := by
  unfold db2lin
  repeat' with_reducible first | exact Writer.pure _ | exact writer_cAdd _ _ | exact writer_cMul _ _ | exact writer_note _ | exact writer_cDiv _ _ | refine Writer.bind ?_ fun _ => ?_

theorem writer_xfade (d w m : F32) : Writer (xfade d w m) := by
  unfold xfade
  repeat' with_reducible first | exact Writer.pure _ | exact writer_cAdd _ _ | exact writer_cMul _ _ | exact writer_cSub _ _ | refine Writer.bind ?_ fun _ => ?_

theorem writer_xfade2 (l r wL wR m : F32) : Writer (xfade2 l r wL wR m) := by
  unfold xfade2
  repeat' with_reducible first | exact Writer.pure _ | exact writer_xfade _ _ _ | refine Writer.bind ?_ fun _ => ?_

/-! ## Units -/

theorem writer_unitFrames {U : Type} {mixNext : U → Calc (F32 × U)}
    {sample : U → F32 → F32 → F32 → Calc ((F32 × F32) × U)} (hm : ∀ u, Writer (mixNext u))
    (hs : ∀ u l r m, Writer (sample u l r m)) (k i : Nat) (u : U) (b : SampleBuffer) :
    Writer (unitFrames mixNext sample k i u b) := by
  induction k generalizing i u b with
  | zero => exact Writer.pure _
  | succ k ih =>
    unfold unitFrames
    repeat' first
      | with_reducible first | exact hm _ | exact hs _ _ _ _ | exact ih _ _ _ | exact writer_bufRead _ _ _ | refine Writer.bind ?_ fun _ => ?_
      | split

theorem writer_emberChannel (x p : F32) : Writer (emberChannel x p) := by
  unfold emberChannel
  repeat' with_reducible first | exact Writer.pure _ | exact writer_cAdd _ _ | exact writer_cMul _ _ | exact writer_emberShape _ | refine Writer.bind ?_ fun _ => ?_

theorem writer_driftLag (p sr : F32) : Writer (driftLag p sr) := by
  unfold driftLag
  repeat' with_reducible first | exact Writer.pure _ | exact writer_cAdd _ _ | exact writer_cMul _ _ | exact writer_lfoSine _ | refine Writer.bind ?_ fun _ => ?_

theorem writer_driftRight (p : F32) : Writer (driftRight p) := by
  unfold driftRight
  repeat' first
    | with_reducible first | exact Writer.pure _ | exact writer_cAdd _ _ | exact writer_cSub _ _ | refine Writer.bind ?_ fun _ => ?_
    | dsimp only
    | split

theorem writer_fractureChannel (x g nb : F32) : Writer (fractureChannel x g nb) := by
  unfold fractureChannel
  repeat' with_reducible first | exact Writer.pure _ | exact writer_cMul _ _ | exact writer_quant _ _ | refine Writer.bind ?_ fun _ => ?_

theorem writer_cascadeSum (a b c d : F32) : Writer (cascadeSum a b c d) := by
  unfold cascadeSum
  repeat' with_reducible first | exact Writer.pure _ | exact writer_cMul _ _ | exact writer_cAdd _ _ | refine Writer.bind ?_ fun _ => ?_

theorem writer_scorchChannel (x g : F32) : Writer (scorchChannel x g) := by
  unfold scorchChannel
  repeat' with_reducible first | exact Writer.pure _ | exact writer_cMul _ _ | exact writer_cAdd _ _ | refine Writer.bind ?_ fun _ => ?_

theorem writer_emberMix (u : Ember) : Writer (u.mixNext) := by
  unfold Ember.mixNext
  repeat' with_reducible first | exact Writer.pure _ | exact writer_next _ | refine Writer.bind ?_ fun _ => ?_

theorem writer_emberSample (u : Ember) (l r m : F32) : Writer (u.sample l r m) := by
  unfold Ember.sample
  repeat' with_reducible first | exact Writer.pure _ | exact writer_emberChannel _ _ | exact writer_xfade2 _ _ _ _ _ | refine Writer.bind ?_ fun _ => ?_

theorem writer_emberRun (u : Ember) (n : Nat) (b : SampleBuffer) : Writer (u.run n b) :=
  writer_unitFrames writer_emberMix writer_emberSample _ _ _ _

theorem writer_velvetMix (u : Velvet) : Writer (u.mixNext) := by
  unfold Velvet.mixNext
  repeat' with_reducible first | exact Writer.pure _ | exact writer_next _ | refine Writer.bind ?_ fun _ => ?_

theorem writer_velvetSample (u : Velvet) (l r m : F32) : Writer (u.sample l r m) := by
  unfold Velvet.sample
  repeat' with_reducible first | exact Writer.pure _ | exact writer_bqProcess _ _ | exact writer_xfade2 _ _ _ _ _ | refine Writer.bind ?_ fun _ => ?_

theorem writer_velvetStart (u : Velvet) (sr : F32) : Writer (u.blockStart sr) := by
  unfold Velvet.blockStart
  dsimp only
  repeat' with_reducible first | exact Writer.pure _ | exact writer_cAdd _ _ | exact writer_cSub _ _ | exact writer_cMul _ _ | exact writer_setc _ _ _ _ _ _ | refine Writer.bind ?_ fun _ => ?_

theorem writer_velvetRun (sr : F32) (u : Velvet) (n : Nat) (b : SampleBuffer) : Writer (Velvet.run sr u n b) :=
  Writer.bind (writer_velvetStart u sr) fun _ => writer_unitFrames writer_velvetMix writer_velvetSample _ _ _ _

theorem writer_driftMix (u : Drift) : Writer (u.mixNext) := by
  unfold Drift.mixNext
  repeat' with_reducible first | exact Writer.pure _ | exact writer_next _ | refine Writer.bind ?_ fun _ => ?_

theorem writer_driftSample (sr : F32) (u : Drift) (l r m : F32) : Writer (Drift.sample sr u l r m) := by
  unfold Drift.sample
  repeat' with_reducible first | exact Writer.pure _ | exact writer_driftRight _ | exact writer_driftLag _ _ | exact writer_cReadF _ _ _ | exact writer_cPush _ _ _ | exact writer_lfoAdvance _ _ _ | exact writer_cMul _ _ | exact writer_xfade2 _ _ _ _ _ | refine Writer.bind ?_ fun _ => ?_

theorem writer_driftRun (sr : F32) (u : Drift) (n : Nat) (b : SampleBuffer) : Writer (Drift.run sr u n b) :=
  writer_unitFrames writer_driftMix (writer_driftSample sr) _ _ _ _

theorem writer_echoMix (u : Echo) : Writer (u.mixNext) := by
  unfold Echo.mixNext
  repeat' with_reducible first | exact Writer.pure _ | exact writer_next _ | refine Writer.bind ?_ fun _ => ?_

theorem writer_echoSample (sr : F32) (u : Echo) (l r m : F32) : Writer (Echo.sample sr u l r m) := by
  unfold Echo.sample
  repeat' with_reducible first | exact Writer.pure _ | exact writer_lfoSine _ | exact writer_cAdd _ _ | exact writer_cMul _ _ | exact writer_cReadF _ _ _ | exact writer_bqProcess _ _ | exact writer_cPush _ _ _ | exact writer_lfoAdvance _ _ _ | exact writer_xfade2 _ _ _ _ _ | refine Writer.bind ?_ fun _ => ?_

theorem writer_echoRun (sr : F32) (u : Echo) (n : Nat) (b : SampleBuffer) : Writer (Echo.run sr u n b) :=
  writer_unitFrames writer_echoMix (writer_echoSample sr) _ _ _ _

theorem writer_hazeMix (u : Haze) : Writer (u.mixNext) := by
  unfold Haze.mixNext
  repeat' with_reducible first | exact Writer.pure _ | exact writer_next _ | refine Writer.bind ?_ fun _ => ?_

theorem writer_hazeSample (u : Haze) (l r m : F32) : Writer (u.sample l r m) := by
  unfold Haze.sample
  repeat' with_reducible first | exact Writer.pure _ | exact writer_cReadI _ _ | exact writer_cAdd _ _ | exact writer_cMul _ _ | exact writer_bqProcess _ _ | exact writer_cPush _ _ _ | exact writer_xfade2 _ _ _ _ _ | refine Writer.bind ?_ fun _ => ?_

theorem writer_hazeRun (u : Haze) (n : Nat) (b : SampleBuffer) : Writer (u.run n b) :=
  writer_unitFrames writer_hazeMix writer_hazeSample _ _ _ _

theorem writer_fractureMix (u : Fracture) : Writer (u.mixNext) := by
  unfold Fracture.mixNext
  repeat' with_reducible first | exact Writer.pure _ | exact writer_next _ | refine Writer.bind ?_ fun _ => ?_

theorem writer_fractureSample (u : Fracture) (l r m : F32) : Writer (u.sample l r m) := by
  unfold Fracture.sample
  repeat' with_reducible first | exact Writer.pure _ | exact writer_cAdd _ _ | exact writer_cSub _ _ | exact writer_cMul _ _ | exact writer_fractureChannel _ _ _ | exact writer_xfade2 _ _ _ _ _ | refine Writer.bind ?_ fun _ => ?_

theorem writer_fractureRun (u : Fracture) (n : Nat) (b : SampleBuffer) : Writer (u.run n b) :=
  writer_unitFrames writer_fractureMix writer_fractureSample _ _ _ _

theorem writer_prismMix (u : Prism) : Writer (u.mixNext) := by
  unfold Prism.mixNext
  repeat' with_reducible first | exact Writer.pure _ | exact writer_next _ | refine Writer.bind ?_ fun _ => ?_

theorem writer_prismSample (u : Prism) (l r m : F32) : Writer (u.sample l r m) := by
  unfold Prism.sample
  repeat' with_reducible first | exact Writer.pure _ | exact writer_cAdd _ _ | exact writer_cMul _ _ | exact writer_xfade2 _ _ _ _ _ | refine Writer.bind ?_ fun _ => ?_

theorem writer_prismRun (u : Prism) (n : Nat) (b : SampleBuffer) : Writer (u.run n b) :=
  writer_unitFrames writer_prismMix writer_prismSample _ _ _ _

theorem writer_phaseMix (u : Phase) : Writer (u.mixNext) := by
  unfold Phase.mixNext
  repeat' with_reducible first | exact Writer.pure _ | exact writer_next _ | refine Writer.bind ?_ fun _ => ?_

theorem writer_phaseSample (sr : F32) (u : Phase) (l r m : F32) : Writer (Phase.sample sr u l r m) := by
  unfold Phase.sample
  repeat' with_reducible first | exact Writer.pure _ | exact writer_cMul _ _ | exact writer_cAdd _ _ | exact writer_cSub _ _ | exact writer_lfoTri _ | exact writer_cReadF _ _ _ | exact writer_cPush _ _ _ | exact writer_lfoAdvance _ _ _ | exact writer_xfade2 _ _ _ _ _ | refine Writer.bind ?_ fun _ => ?_

theorem writer_phaseRun (sr : F32) (u : Phase) (n : Nat) (b : SampleBuffer) : Writer (Phase.run sr u n b) :=
  writer_unitFrames writer_phaseMix (writer_phaseSample sr) _ _ _ _

theorem writer_cascadeMix (u : Cascade) : Writer (u.mixNext) := by
  unfold Cascade.mixNext
  repeat' with_reducible first | exact Writer.pure _ | exact writer_next _ | refine Writer.bind ?_ fun _ => ?_

theorem writer_cascadeSample (u : Cascade) (l r m : F32) : Writer (u.sample l r m) := by
  unfold Cascade.sample
  repeat' with_reducible first | exact Writer.pure _ | exact writer_cReadI _ _ | exact writer_cascadeSum _ _ _ _ | exact writer_cAdd _ _ | exact writer_cMul _ _ | exact writer_cPush _ _ _ | exact writer_xfade2 _ _ _ _ _ | refine Writer.bind ?_ fun _ => ?_

theorem writer_cascadeRun (u : Cascade) (n : Nat) (b : SampleBuffer) : Writer (u.run n b) :=
  writer_unitFrames writer_cascadeMix writer_cascadeSample _ _ _ _

theorem writer_glistenMix (u : Glisten) : Writer (u.mixNext) := by
  unfold Glisten.mixNext
  repeat' with_reducible first | exact Writer.pure _ | exact writer_next _ | refine Writer.bind ?_ fun _ => ?_

theorem writer_glistenSample (u : Glisten) (l r m : F32) : Writer (u.sample l r m) := by
  unfold Glisten.sample
  repeat' with_reducible first | exact Writer.pure _ | exact writer_cReadI _ _ | exact writer_needSize _ | exact writer_bqProcess _ _ | exact writer_cAdd _ _ | exact writer_cMul _ _ | exact writer_cPush _ _ _ | exact writer_xfade2 _ _ _ _ _ | refine Writer.bind ?_ fun _ => ?_

theorem writer_glistenRun (u : Glisten) (n : Nat) (b : SampleBuffer) : Writer (u.run n b) :=
  writer_unitFrames writer_glistenMix writer_glistenSample _ _ _ _

theorem writer_scorchMix (u : Scorch) : Writer (u.mixNext) := by
  unfold Scorch.mixNext
  repeat' with_reducible first | exact Writer.pure _ | exact writer_next _ | refine Writer.bind ?_ fun _ => ?_

theorem writer_scorchSample (u : Scorch) (l r m : F32) : Writer (u.sample l r m) := by
  unfold Scorch.sample
  repeat' with_reducible first | exact Writer.pure _ | exact writer_cAdd _ _ | exact writer_cMul _ _ | exact writer_scorchChannel _ _ | exact writer_xfade2 _ _ _ _ _ | refine Writer.bind ?_ fun _ => ?_

theorem writer_scorchRun (u : Scorch) (n : Nat) (b : SampleBuffer) : Writer (u.run n b) :=
  writer_unitFrames writer_scorchMix writer_scorchSample _ _ _ _

theorem writer_snarlMix (u : Snarl) : Writer (u.mixNext) := by
  unfold Snarl.mixNext
  repeat' with_reducible first | exact Writer.pure _ | exact writer_next _ | refine Writer.bind ?_ fun _ => ?_

theorem writer_snarlSample (u : Snarl) (l r m : F32) : Writer (u.sample l r m) := by
  unfold Snarl.sample
  repeat' with_reducible first | exact Writer.pure _ | exact writer_cAdd _ _ | exact writer_cMul _ _ | exact writer_bqProcess _ _ | exact writer_note _ | exact writer_xfade2 _ _ _ _ _ | refine Writer.bind ?_ fun _ => ?_

theorem writer_snarlStart (u : Snarl) (sr : F32) : Writer (u.blockStart sr) := by
  unfold Snarl.blockStart
  dsimp only
  repeat' with_reducible first | exact Writer.pure _ | exact writer_cAdd _ _ | exact writer_cSub _ _ | exact writer_cMul _ _ | exact writer_setc _ _ _ _ _ _ | refine Writer.bind ?_ fun _ => ?_

theorem writer_snarlRun (sr : F32) (u : Snarl) (n : Nat) (b : SampleBuffer) : Writer (Snarl.run sr u n b) :=
  Writer.bind (writer_snarlStart u sr) fun _ => writer_unitFrames writer_snarlMix writer_snarlSample _ _ _ _

theorem writer_shredMix (u : Shred) : Writer (u.mixNext) := by
  unfold Shred.mixNext
  repeat' with_reducible first | exact Writer.pure _ | exact writer_next _ | refine Writer.bind ?_ fun _ => ?_

theorem writer_shredSample (sr : F32) (u : Shred) (l r m : F32) : Writer (Shred.sample sr u l r m) := by
  unfold Shred.sample
  repeat' with_reducible first | exact Writer.pure _ | exact writer_lfoSine _ | exact writer_lfoAdvance _ _ _ | exact writer_cAdd _ _ | exact writer_cMul _ _ | exact writer_xfade2 _ _ _ _ _ | refine Writer.bind ?_ fun _ => ?_

theorem writer_shredRun (sr : F32) (u : Shred) (n : Nat) (b : SampleBuffer) : Writer (Shred.run sr u n b) :=
  writer_unitFrames writer_shredMix (writer_shredSample sr) _ _ _ _

theorem writer_grindMix (u : Grind) : Writer (u.mixNext) := by
  unfold Grind.mixNext
  repeat' with_reducible first | exact Writer.pure _ | exact writer_next _ | refine Writer.bind ?_ fun _ => ?_

theorem writer_grindSample (u : Grind) (l r m : F32) : Writer (u.sample l r m) := by
  unfold Grind.sample
  dsimp only
  repeat' first
    | with_reducible first | exact Writer.pure _ | exact writer_cReadI _ _ | exact writer_cMul _ _ | exact writer_cSub _ _ | exact writer_cAdd _ _ | exact writer_quant _ _ | exact writer_cPush _ _ _ | exact writer_xfade2 _ _ _ _ _ | refine Writer.bind ?_ fun _ => ?_
    | dsimp only
    | split

theorem writer_grindRun (u : Grind) (n : Nat) (b : SampleBuffer) : Writer (u.run n b) :=
  writer_unitFrames writer_grindMix writer_grindSample _ _ _ _

theorem writer_rustMix (u : Rust) : Writer (u.mixNext) := by
  unfold Rust.mixNext
  repeat' with_reducible first | exact Writer.pure _ | exact writer_next _ | refine Writer.bind ?_ fun _ => ?_

theorem writer_rustSample (u : Rust) (l r m : F32) : Writer (u.sample l r m) := by
  unfold Rust.sample
  repeat' with_reducible first | exact Writer.pure _ | exact writer_envStep _ _ _ _ | exact writer_gate _ | exact writer_cReadI _ _ | exact writer_cAdd _ _ | exact writer_cMul _ _ | exact writer_cPush _ _ _ | exact writer_xfade2 _ _ _ _ _ | refine Writer.bind ?_ fun _ => ?_

theorem writer_rustRun (u : Rust) (n : Nat) (b : SampleBuffer) : Writer (u.run n b) :=
  writer_unitFrames writer_rustMix writer_rustSample _ _ _ _

theorem writer_unitProcess (u : UnitId) (n : Nat) (s : State) : Writer (unitProcess u n s) := by
  cases u <;> refine Writer.bind ?_ fun _ => Writer.pure _
  · exact writer_emberRun _ _ _
  · exact writer_velvetRun _ _ _ _
  · exact writer_driftRun _ _ _ _
  · exact writer_echoRun _ _ _ _
  · exact writer_hazeRun _ _ _
  · exact writer_fractureRun _ _ _
  · exact writer_prismRun _ _ _
  · exact writer_phaseRun _ _ _ _
  · exact writer_cascadeRun _ _ _
  · exact writer_glistenRun _ _ _
  · exact writer_scorchRun _ _ _
  · exact writer_snarlRun _ _ _ _
  · exact writer_shredRun _ _ _ _
  · exact writer_grindRun _ _ _
  · exact writer_rustRun _ _ _

/-! ## Preamp, chain, sequences, commands -/

theorem writer_setShelf (p : Preamp) (sr tn : F32) : Writer (p.setShelf sr tn) := by
  unfold Preamp.setShelf
  repeat' with_reducible first | exact Writer.pure _ | exact writer_cAdd _ _ | exact writer_cMul _ _ | exact writer_setc _ _ _ _ _ _ | refine Writer.bind ?_ fun _ => ?_

theorem writer_preampShape (x g : F32) : Writer (preampShape x g) := by
  unfold preampShape
  repeat' with_reducible first | exact Writer.pure _ | exact writer_cMul _ _ | exact writer_xfmrSat _ | exact writer_softclip _ | refine Writer.bind ?_ fun _ => ?_

theorem writer_preampAdvance (p : Preamp) : Writer (p.advance) := by
  unfold Preamp.advance
  repeat' with_reducible first | exact Writer.pure _ | exact writer_next _ | refine Writer.bind ?_ fun _ => ?_

theorem writer_preampFrame (sr : F32) (p : Preamp) (l r : F32) : Writer (p.frame sr l r) := by
  unfold Preamp.frame
  repeat' with_reducible first | exact Writer.pure _ | exact writer_preampAdvance _ | exact writer_setShelf _ _ _ | exact writer_cAdd _ _ | exact writer_cMul _ _ | exact writer_preampShape _ _ | exact writer_bqProcess _ _ | refine Writer.bind ?_ fun _ => ?_

theorem writer_preampFrames (sr : F32) (k i : Nat) (p : Preamp) (b : SampleBuffer) :
    Writer (preampFrames sr k i p b) := by
  induction k generalizing i p b with
  | zero => exact Writer.pure _
  | succ k ih =>
    unfold preampFrames
    repeat' with_reducible first | exact ih _ _ _ | exact writer_bufRead _ _ _ | exact writer_preampFrame _ _ _ _ | refine Writer.bind ?_ fun _ => ?_

theorem writer_preamp (n : Nat) (s : State) : Writer (preamp n s) := by
  unfold preamp
  repeat' with_reducible first | exact Writer.pure _ | exact writer_preampFrames _ _ _ _ _ | refine Writer.bind ?_ fun _ => ?_

theorem writer_runChain (n : Nat) (s : State) : Writer (runChain n s) := by
  unfold runChain
  repeat' with_reducible first | exact Writer.pure _ | exact writer_unitProcess _ _ _ | refine Writer.bind ?_ fun _ => ?_

theorem writer_peaks (b : SampleBuffer) (k i : Nat) (pk : F32 × F32) : Writer (peaks b k i pk) := by
  induction k generalizing i pk with
  | zero => exact Writer.pure _
  | succ k ih =>
    unfold peaks
    repeat' with_reducible first | exact ih _ _ | exact writer_bufRead _ _ _ | refine Writer.bind ?_ fun _ => ?_

theorem writer_meterUpdate (k : MeterId) (pk : F32) (s : State) : Writer (meterUpdate k pk s) := by
  unfold meterUpdate
  repeat' with_reducible first | exact Writer.pure _ | exact writer_meterNext _ _ | refine Writer.bind ?_ fun _ => ?_

theorem writer_meterBlock (i o : F32 × F32) (s : State) : Writer (meterBlock i o s) := by
  unfold meterBlock
  repeat' with_reducible first | exact Writer.pure _ | exact writer_meterUpdate _ _ _ | refine Writer.bind ?_ fun _ => ?_

theorem writer_processFrames (n : Nat) (s : State) : Writer (processFrames n s) := by
  unfold processFrames
  repeat' with_reducible first | exact Writer.pure _ | exact writer_peaks _ _ _ _ | exact writer_preamp _ _ | exact writer_runChain _ _ | exact writer_meterBlock _ _ _ | refine Writer.bind ?_ fun _ => ?_

theorem writer_retarget (v : SmootherId) (t : F32) (s : State) : Writer (retarget v t s) := by
  unfold retarget
  repeat' with_reducible first | exact Writer.pure _ | exact writer_setTarget _ _ | refine Writer.bind ?_ fun _ => ?_

theorem writer_retargetMixes (h : Holders) (us : List UnitId) (s : State) : Writer (retargetMixes h us s) := by
  induction us generalizing s with
  | nil => exact Writer.pure _
  | cons u us ih => exact Writer.bind (writer_retarget _ _ _) fun _ => ih _

theorem writer_applyParams (s : State) : Writer (applyParams s) := by
  unfold applyParams
  dsimp only
  repeat' with_reducible first | exact Writer.pure _ | exact writer_retarget _ _ _ | exact writer_db2lin _ | exact writer_retargetMixes _ _ _ | refine Writer.bind ?_ fun _ => ?_

theorem writer_processLatch (s : State) : Writer (processLatch s) := by
  unfold processLatch
  repeat' with_reducible first | exact Writer.pure _ | exact writer_applyParams _ | refine Writer.bind ?_ fun _ => ?_

theorem writer_processBlock (n : Nat) (s : State) : Writer (processBlock n s) := by
  unfold processBlock
  repeat' first
    | with_reducible first | exact Writer.pure _ | exact writer_processLatch _ | exact writer_processFrames _ _ | refine Writer.bind ?_ fun _ => ?_
    | dsimp only
    | split

/-! ## The parts of PREPARE -/

theorem writer_tapLength (t sr : F32) : Writer (tapLength t sr) := by
  unfold tapLength
  repeat' with_reducible first | exact Writer.pure _ | exact writer_cMul _ _ | refine Writer.bind ?_ fun _ => ?_

theorem writer_setcPair (fL fR : Biquad) (k : FilterKind) (fc q sr : F32) : Writer (setcPair fL fR k fc q sr) := by
  unfold setcPair
  repeat' with_reducible first | exact Writer.pure _ | exact writer_setc _ _ _ _ _ _ | refine Writer.bind ?_ fun _ => ?_

theorem writer_preampSize (p : Preamp) (sr : F32) : Writer (p.sizeState sr) := by
  unfold Preamp.sizeState
  repeat' with_reducible first | exact Writer.pure _ | exact writer_rampSteps _ _ | exact writer_setcPair _ _ _ _ _ _ | refine Writer.bind ?_ fun _ => ?_

theorem writer_driftSize (u : Drift) (n : Nat) (sr : F32) : Writer (u.sizeState n sr) := by
  unfold Drift.sizeState
  repeat' with_reducible first | exact Writer.pure _ | exact writer_dlSize _ _ _ _ | exact writer_tapLength _ _ | exact writer_setcPair _ _ _ _ _ _ | exact writer_envCoef _ _ | refine Writer.bind ?_ fun _ => ?_

theorem writer_echoSize (u : Echo) (n : Nat) (sr : F32) : Writer (u.sizeState n sr) := by
  unfold Echo.sizeState
  repeat' with_reducible first | exact Writer.pure _ | exact writer_dlSize _ _ _ _ | exact writer_tapLength _ _ | exact writer_setcPair _ _ _ _ _ _ | exact writer_envCoef _ _ | refine Writer.bind ?_ fun _ => ?_

theorem writer_hazeSize (u : Haze) (n : Nat) (sr : F32) : Writer (u.sizeState n sr) := by
  unfold Haze.sizeState
  repeat' with_reducible first | exact Writer.pure _ | exact writer_dlSize _ _ _ _ | exact writer_tapLength _ _ | exact writer_setcPair _ _ _ _ _ _ | exact writer_envCoef _ _ | refine Writer.bind ?_ fun _ => ?_

theorem writer_phaseSize (u : Phase) (n : Nat) (sr : F32) : Writer (u.sizeState n sr) := by
  unfold Phase.sizeState
  repeat' with_reducible first | exact Writer.pure _ | exact writer_dlSize _ _ _ _ | exact writer_tapLength _ _ | exact writer_setcPair _ _ _ _ _ _ | exact writer_envCoef _ _ | refine Writer.bind ?_ fun _ => ?_

theorem writer_cascadeSize (u : Cascade) (n : Nat) (sr : F32) : Writer (u.sizeState n sr) := by
  unfold Cascade.sizeState
  repeat' with_reducible first | exact Writer.pure _ | exact writer_dlSize _ _ _ _ | exact writer_tapLength _ _ | exact writer_setcPair _ _ _ _ _ _ | exact writer_envCoef _ _ | refine Writer.bind ?_ fun _ => ?_

theorem writer_glistenSize (u : Glisten) (n : Nat) (sr : F32) : Writer (u.sizeState n sr) := by
  unfold Glisten.sizeState
  repeat' with_reducible first | exact Writer.pure _ | exact writer_dlSize _ _ _ _ | exact writer_tapLength _ _ | exact writer_setcPair _ _ _ _ _ _ | exact writer_envCoef _ _ | refine Writer.bind ?_ fun _ => ?_

theorem writer_grindSize (u : Grind) (n : Nat) (sr : F32) : Writer (u.sizeState n sr) := by
  unfold Grind.sizeState
  repeat' with_reducible first | exact Writer.pure _ | exact writer_dlSize _ _ _ _ | exact writer_tapLength _ _ | exact writer_setcPair _ _ _ _ _ _ | exact writer_envCoef _ _ | refine Writer.bind ?_ fun _ => ?_

theorem writer_rustSize (u : Rust) (n : Nat) (sr : F32) : Writer (u.sizeState n sr) := by
  unfold Rust.sizeState
  repeat' with_reducible first | exact Writer.pure _ | exact writer_dlSize _ _ _ _ | exact writer_tapLength _ _ | exact writer_setcPair _ _ _ _ _ _ | exact writer_envCoef _ _ | refine Writer.bind ?_ fun _ => ?_

theorem writer_unitsSize (u : Units) (sr : F32) : Writer (u.sizeState sr) := by
  unfold Units.sizeState
  repeat' with_reducible first | exact Writer.pure _ | exact writer_rampSteps _ _ | exact writer_driftSize _ _ _ | exact writer_echoSize _ _ _ | exact writer_hazeSize _ _ _ | exact writer_phaseSize _ _ _ | exact writer_cascadeSize _ _ _ | exact writer_glistenSize _ _ _ | exact writer_grindSize _ _ _ | exact writer_rustSize _ _ _ | refine Writer.bind ?_ fun _ => ?_

theorem writer_sizeState (s : State) : Writer (sizeState s) := by
  unfold sizeState
  repeat' with_reducible first | exact Writer.pure _ | exact writer_preampSize _ _ | exact writer_unitsSize _ _ | refine Writer.bind ?_ fun _ => ?_

theorem writer_writeTargets (s : State) : Writer (writeTargets s) := by
  unfold writeTargets
  repeat' with_reducible first | exact Writer.pure _ | exact writer_db2lin _ | refine Writer.bind ?_ fun _ => ?_

theorem writer_prepareCoefs (s : State) : Writer (prepareCoefs s) := by
  unfold prepareCoefs
  repeat' with_reducible first | exact Writer.pure _ | exact writer_setShelf _ _ _ | exact writer_velvetStart _ _ | exact writer_snarlStart _ _ | refine Writer.bind ?_ fun _ => ?_

end Sys2Proof.Machine
end

