-- ==== Sys2Proof/Laws/Rules.lean ====
section
/-! SUPPORT. One lemma for each computation that a rule describes: its value is the rule's expression (Safety.lean). Cite
these instead of unfolding the monadic definitions. -/

namespace Sys2Proof.Machine

open Sys2Proof Sys2Proof.Safety

theorem valueOf_next (v : Smoother) : valueOf v.next = nextRule v := by
  unfold Smoother.next nextRule
  split
  · rfl
  · split
    · simp [*]
    · have h : v.stepsRemaining - 1 ≠ 0 := by omega
      simp only [h, if_false]; rfl

/-- An idle smoother does not move (41_smoother.md R163). -/
theorem advanced_idle (k : Nat) {v : Smoother} (h : v.stepsRemaining = 0) : advanced k v = v := by
  induction k with
  | zero => rfl
  | succ k ih => rw [advanced, ih, nextRule, if_pos h]

theorem valueOf_setTarget (v : Smoother) (t : F32) : valueOf (v.setTarget t) = settargetRule v t := by
  unfold Smoother.setTarget settargetRule
  split
  · rfl
  · split <;> rfl

theorem valueOf_bqProcess (f : Biquad) (x : F32) : valueOf (f.process x) = (bqOut f x, bqNext f x) := rfl

theorem valueOf_setc (f : Biquad) (k : FilterKind) (fc q sr g : F32) :
    valueOf (f.setc k fc q sr g) = withCoefs f (coefRule k fc q sr g) := by cases k <;> rfl

@[simp] theorem coefsOf_withCoefs (f : Biquad) (c : Coefs) : coefsOf (withCoefs f c) = c := rfl
@[simp] theorem coefsOf_bqNext (f : Biquad) (x : F32) : coefsOf (bqNext f x) = coefsOf f := rfl
@[simp] theorem coefsOf_reset (f : Biquad) : coefsOf f.reset = coefsOf f := rfl

theorem valueOf_readF (d : DelayLine) (ch : Channel) (t : F32) : valueOf (d.readF ch t) = fracRule d ch t := by
  have h : valueOf (d.readPos t) =
      if dLt (fSub (fOfNat d.writePos) t) k0 then fAdd (fSub (fOfNat d.writePos) t) (fOfNat d.cap)
      else fSub (fOfNat d.writePos) t := by
    unfold DelayLine.readPos
    rw [valueOf_bind _ fun _ => by split; exacts [writer_cAdd _ _, Writer.pure _], valueOf_cSub]
    split <;> rfl
  unfold DelayLine.readF fracRule
  rw [valueOf_bind _ fun _ => by
    repeat' with_reducible first | exact writer_cSub _ _ | exact writer_cMul _ _ | exact writer_cAdd _ _ | refine Writer.bind ?_ fun _ => ?_, h]
  rfl

theorem valueOf_cReadI (d : DelayLine) (lag : Nat) :
    valueOf (cReadI d lag) = (tapRule d .left lag, tapRule d .right lag) := rfl

theorem valueOf_cReadF (d : DelayLine) (ch : Channel) (t : F32) : valueOf (cReadF d ch t) = fracRule d ch t := by
  unfold cReadF
  rw [valueOf_bind _ fun _ => writer_readF _ _ _, valueOf_readF]

theorem valueOf_cPush (d : DelayLine) (vL vR : F32) : valueOf (cPush d vL vR) = pushRule d vL vR := rfl

theorem valueOf_xfmrSat (x : F32) : valueOf (xfmrSat x) = xfmrRule x := by
  simp only [xfmrSat, xfmrRule]; split <;> rfl

theorem valueOf_softclip (x : F32) : valueOf (softclip x) = softRule x := by
  simp only [softclip, softRule]; split <;> rfl

theorem valueOf_emberShape (x : F32) : valueOf (emberShape x) = emberRule x := by
  simp only [emberShape, emberRule]; split <;> rfl

theorem valueOf_quant (x nb : F32) : valueOf (quant x nb) = quantRule x nb := rfl

theorem valueOf_lfoAdvance (p r sr : F32) : valueOf (lfoAdvance p r sr) = lfoRule p r sr := by
  unfold lfoAdvance lfoRule
  rw [valueOf_bind _ fun _ => by
      refine Writer.bind (writer_cAdd _ _) fun _ => ?_
      split
      exacts [writer_cSub _ _, Writer.pure _],
    valueOf_bind _ fun _ => by split; exacts [writer_cSub _ _, Writer.pure _], valueOf_cDiv, valueOf_cAdd]
  dsimp only
  by_cases h : dGe (fAdd p (fDiv r sr)) k1 = true
  · rw [if_pos h, if_pos h]; rfl
  · rw [if_neg h, if_neg h]; rfl

theorem valueOf_lfoSine (p : F32) : valueOf (lfoSine p) = sineRule p := rfl

theorem valueOf_lfoTri (p : F32) : valueOf (lfoTri p) = triRule p := by
  simp only [lfoTri, triRule]; split <;> rfl

theorem valueOf_envCoef (t sr : F32) : valueOf (envCoef t sr) = envCoefRule t sr := rfl

theorem valueOf_envStep (e l a r : F32) : valueOf (envStep e l a r) = envRule e l a r := rfl

theorem valueOf_gate (e : F32) : valueOf (gate e) = gateRule e := by
  simp only [gate, gateRule]; split <;> rfl

theorem valueOf_meterNext (o pk : F32) : valueOf (meterNext o pk) = meterRule o pk := rfl

theorem valueOf_db2lin (o : F32) : valueOf (db2lin o) = gainRule o := rfl

theorem valueOf_xfade2 (l r wL wR m : F32) : valueOf (xfade2 l r wL wR m) = (xf l wL m, xf r wR m) := rfl

theorem valueOf_setShelf (p : Preamp) (sr tn : F32) :
    valueOf (p.setShelf sr tn) =
      { p with shelfL := withCoefs p.shelfL (shelfCoefs tn sr), shelfR := withCoefs p.shelfR (shelfCoefs tn sr) } := rfl

theorem valueOf_velvetStart (u : Velvet) (sr : F32) :
    valueOf (u.blockStart sr) =
      { u with fL := withCoefs u.fL (velvetCoefs u.mix.current sr), fR := withCoefs u.fR (velvetCoefs u.mix.current sr) } :=
  rfl

theorem valueOf_snarlStart (u : Snarl) (sr : F32) :
    valueOf (u.blockStart sr) =
      { u with fL := withCoefs u.fL (snarlCoefs u.mix.current sr), fR := withCoefs u.fR (snarlCoefs u.mix.current sr) } :=
  rfl

/-! ## The loop over the frames of a block -/

/-- One frame more of UNIT.PROCESS's loop. -/
theorem valueOf_unitFrames_succ {U : Type} {mixNext : U → Calc (F32 × U)}
    {sample : U → F32 → F32 → F32 → Calc ((F32 × F32) × U)} (hm : ∀ u, Writer (mixNext u))
    (hs : ∀ u l r m, Writer (sample u l r m)) (k i : Nat) (u : U) (b : SampleBuffer) :
    valueOf (unitFrames mixNext sample (k + 1) i u b) =
      (if dLt (valueOf (mixNext u)).1 mixSilence then
        valueOf (unitFrames mixNext sample k (i + 1) (valueOf (mixNext u)).2 b)
      else
        valueOf (unitFrames mixNext sample k (i + 1)
          (valueOf (sample (valueOf (mixNext u)).2 (valueOf (bufRead b .left i)) (valueOf (bufRead b .right i))
            (valueOf (mixNext u)).1)).2
          (writeFrame b i
            (valueOf (sample (valueOf (mixNext u)).2 (valueOf (bufRead b .left i)) (valueOf (bufRead b .right i))
              (valueOf (mixNext u)).1)).1.1
            (valueOf (sample (valueOf (mixNext u)).2 (valueOf (bufRead b .left i)) (valueOf (bufRead b .right i))
              (valueOf (mixNext u)).1)).1.2))) := by
  have hf := fun k i u b => writer_unitFrames hm hs k i u b
  rw [unitFrames, valueOf_bind]
  · generalize valueOf (mixNext u) = x
    obtain ⟨m, u1⟩ := x
    dsimp only
    by_cases h : dLt m mixSilence = true
    · rw [if_pos h, if_pos h]
    · rw [if_neg h, if_neg h, valueOf_bind _ fun _ => ?_, valueOf_bind _ fun _ => ?_, valueOf_bind _ fun _ => ?_]
      · exact hf _ _ _ _
      · exact Writer.bind (hs _ _ _ _) fun _ => hf _ _ _ _
      · exact Writer.bind (writer_bufRead _ _ _) fun _ => Writer.bind (hs _ _ _ _) fun _ => hf _ _ _ _
  · rintro ⟨m, u1⟩
    dsimp only
    split
    · exact hf _ _ _ _
    · exact Writer.bind (writer_bufRead _ _ _) fun _ => Writer.bind (writer_bufRead _ _ _) fun _ =>
        Writer.bind (hs _ _ _ _) fun _ => hf _ _ _ _

/-- A property of a unit's registers that its two parts keep is kept by the loop. -/
theorem unitFrames_keeps {U : Type} {mixNext : U → Calc (F32 × U)}
    {sample : U → F32 → F32 → F32 → Calc ((F32 × F32) × U)} (hm : ∀ u, Writer (mixNext u))
    (hs : ∀ u l r m, Writer (sample u l r m)) {P : U → Prop} (hpm : ∀ u, P u → P (valueOf (mixNext u)).2)
    (hps : ∀ u l r m, P u → P (valueOf (sample u l r m)).2) (k i : Nat) (u : U) (b : SampleBuffer) (h : P u) :
    P (valueOf (unitFrames mixNext sample k i u b)).1 := by
  induction k generalizing i u b with
  | zero => exact h
  | succ k ih =>
    rw [valueOf_unitFrames_succ hm hs]
    split
    · exact ih _ _ _ (hpm u h)
    · exact ih _ _ _ (hps _ _ _ _ (hpm u h))

/-- A property of the buffer that writing a frame of the block keeps is kept by the loop. -/
theorem unitFrames_keeps_buf {U : Type} {mixNext : U → Calc (F32 × U)}
    {sample : U → F32 → F32 → F32 → Calc ((F32 × F32) × U)} (hm : ∀ u, Writer (mixNext u))
    (hs : ∀ u l r m, Writer (sample u l r m)) {P : SampleBuffer → Prop} (k i : Nat) (u : U) (b : SampleBuffer)
    (hp : ∀ b j l r, i ≤ j → j < i + k → P b → P (writeFrame b j l r)) (h : P b) :
    P (valueOf (unitFrames mixNext sample k i u b)).2 := by
  induction k generalizing i u b with
  | zero => exact h
  | succ k ih =>
    rw [valueOf_unitFrames_succ hm hs]
    have hp' : ∀ b j l r, i + 1 ≤ j → j < i + 1 + k → P b → P (writeFrame b j l r) :=
      fun b j l r h1 h2 => hp b j l r (by omega) (by omega)
    split
    · exact ih _ _ _ hp' h
    · exact ih _ _ _ hp' (hp _ _ _ _ (by omega) (by omega) h)

/-- One frame more of PREAMP's loop. -/
theorem valueOf_preampFrames_succ (sr : F32) (k i : Nat) (p : Preamp) (b : SampleBuffer) :
    valueOf (preampFrames sr (k + 1) i p b) =
      valueOf (preampFrames sr k (i + 1)
        (valueOf (p.frame sr (valueOf (bufRead b .left i)) (valueOf (bufRead b .right i)))).2
        (writeFrame b i
          (valueOf (p.frame sr (valueOf (bufRead b .left i)) (valueOf (bufRead b .right i)))).1.1
          (valueOf (p.frame sr (valueOf (bufRead b .left i)) (valueOf (bufRead b .right i)))).1.2)) := by
  rw [preampFrames, valueOf_bind _ fun _ => ?_, valueOf_bind _ fun _ => ?_, valueOf_bind _ fun _ => ?_]
  · exact writer_preampFrames _ _ _ _ _
  · exact Writer.bind (writer_preampFrame _ _ _ _) fun _ => writer_preampFrames _ _ _ _ _
  · exact Writer.bind (writer_bufRead _ _ _) fun _ =>
      Writer.bind (writer_preampFrame _ _ _ _) fun _ => writer_preampFrames _ _ _ _ _

/-- A property of the preamp that a frame keeps is kept by the loop. -/
theorem preampFrames_keeps (sr : F32) {P : Preamp → Prop} (hp : ∀ p l r, P p → P (valueOf (p.frame sr l r)).2)
    (k i : Nat) (p : Preamp) (b : SampleBuffer) (h : P p) : P (valueOf (preampFrames sr k i p b)).1 := by
  induction k generalizing i p b with
  | zero => exact h
  | succ k ih => rw [valueOf_preampFrames_succ]; exact ih _ _ _ (hp _ _ _ h)

/-- A property of the buffer that writing a frame of the block keeps is kept by the loop. -/
theorem preampFrames_keeps_buf (sr : F32) {P : SampleBuffer → Prop} (k i : Nat) (p : Preamp) (b : SampleBuffer)
    (hp : ∀ b j l r, i ≤ j → j < i + k → P b → P (writeFrame b j l r)) (h : P b) :
    P (valueOf (preampFrames sr k i p b)).2 := by
  induction k generalizing i p b with
  | zero => exact h
  | succ k ih =>
    rw [valueOf_preampFrames_succ]
    exact ih _ _ _ (fun b j l r h1 h2 => hp b j l r (by omega) (by omega)) (hp _ _ _ _ (by omega) (by omega) h)

/-! ## What a stage leaves alone -/

/-- UNIT.PROCESS changes the units and the buffer only. -/
theorem unitProcess_frame (u : UnitId) (n : Nat) (s : State) :
    { valueOf (unitProcess u n s) with units := s.units, buf := s.buf } = s := by cases u <;> rfl

/-- PREAMP changes the preamp and the buffer only. -/
theorem preamp_frame (n : Nat) (s : State) : { valueOf (preamp n s) with pre := s.pre, buf := s.buf } = s := rfl

/-- RESET_STATE changes the preamp, the units and the meters only. -/
theorem resetState_frame (s : State) : { resetState s with pre := s.pre, units := s.units, meters := s.meters } = s := rfl

/-- SV.SETTARGET on an instance. -/
theorem valueOf_retarget (v : SmootherId) (t : F32) (s : State) :
    valueOf (retarget v t s) = s.setSmoother v (settargetRule (s.smoother v) t) := by
  unfold retarget
  rw [valueOf_bind _ fun _ => Writer.pure _, valueOf_setTarget]
  rfl

/-! ## NUM: a constant with R8's properties is left as it is (log 6) -/

/-- A value in its range is kept. -/
theorem within_of_range {lo hi r : F32} (h : (fLe lo r && fLe r hi) = true) : within lo hi r = r := if_pos h

/-- `tanh_f` of a positive number is the constant's value. -/
theorem tanhF_of_pos {x : F32} (hd : daz x = x) (hn : isNaN x = false) (hz : fUnits x ≠ 0) (hs : fSign x = false)
    (hr : (fLe 0 (Config.tanhRaw (dAbs x)) && fLe (Config.tanhRaw (dAbs x)) k1) = true) :
    tanhF x = Config.tanhRaw (dAbs x) := by
  simpa [tanhF, hd, hn, hz, hs] using within_of_range hr

/-- `tanh_f` of a negative number is the constant's value, for a constant that is odd as R8 compares numbers. -/
theorem tanhF_of_neg {x : F32} (hd : daz x = x) (hn : isNaN x = false) (hz : fUnits x ≠ 0) (hs : fSign x = true)
    (hr : (fLe 0 (Config.tanhRaw (dAbs x)) && fLe (Config.tanhRaw (dAbs x)) k1) = true)
    (ho : Config.tanhRaw x = fNeg (Config.tanhRaw (dAbs x)) ∨
      (fEq (Config.tanhRaw (dAbs x)) 0 && fEq (Config.tanhRaw x) 0) = true) :
    tanhF x = Config.tanhRaw x := by
  have e : tanhF x = if (fEq (Config.tanhRaw (dAbs x)) 0 && fEq (Config.tanhRaw x) 0) = true then Config.tanhRaw x
      else fNeg (Config.tanhRaw (dAbs x)) := by
    simp only [tanhF, hd, hn, hz, hs, within_of_range hr, Bool.false_eq_true, if_false, Bool.not_true]
  rw [e]
  split
  · rfl
  · next h => exact (ho.resolve_right h).symm

end Sys2Proof.Machine
end

