-- ==== Sys2Proof/Laws/Samples.lean ====
section
/-! SUPPORT. What one SAMPLE of each unit computes (45_units_cathode.md R234 to R238, 46_units_filament.md R250 to R254,
47_units_steel.md R265 to R269): the output pair and the unit's registers, over the rules' expressions. -/

namespace Sys2Proof.Machine

open Sys2Proof Sys2Proof.Safety

/-- One channel of Ember before the crossfade (R234). -/
theorem valueOf_emberChannel (x p : F32) :
    valueOf (emberChannel x p) =
      (fAdd (fMul k0_7 x) (fMul k0_3 p), fMul (emberRule (fAdd (fMul k0_7 x) (fMul k0_3 p))) k0_7) := by
  unfold emberChannel
  simp (disch :=
    repeat' (first
      | with_reducible (first
        | exact Writer.pure _ | exact writer_cMul _ _ | exact writer_cAdd _ _ | exact writer_emberShape _
        | apply Writer.bind)
      | (intro x; try (obtain ⟨_, _⟩ := x); try dsimp only)))
      only [valueOf_bind, valueOf_pure, valueOf_cMul, valueOf_cAdd, valueOf_emberShape]

/-- Drift's lag (R236). -/
theorem valueOf_driftLag (p sr : F32) :
    valueOf (driftLag p sr) =
      fMul (fAdd k0_015 (fMul k0_012 (sineRule p))) sr := rfl

/-- Drift's right phase (R236). -/
theorem valueOf_driftRight (p : F32) :
    valueOf (driftRight p) = if dGe (fAdd p k0_25) k1 then fSub (fAdd p k0_25) k1 else fAdd p k0_25 := by
  unfold driftRight
  rw [valueOf_bind, valueOf_cAdd]
  · by_cases h : dGe (fAdd p k0_25) k1 = true <;> simp [h]
  · intro
    split
    exacts [writer_cSub _ _, Writer.pure _]

/-- One channel of Fracture before the crossfade (R250). -/
theorem valueOf_fractureChannel (x g nb : F32) :
    valueOf (fractureChannel x g nb) = quantRule (clipRule (fMul x g)) nb := rfl

/-- Cascade's weighted sum of taps (R253). -/
theorem valueOf_cascadeSum (a b c d : F32) :
    valueOf (cascadeSum a b c d) =
      fMul (fAdd (fAdd (fAdd (fMul k0_7 a) (fMul k0_5 b)) (fMul k0_35 c)) (fMul k0_2 d)) k0_5 := rfl

/-- One channel of Scorch before the crossfade (R265). -/
theorem valueOf_scorchChannel (x g : F32) :
    valueOf (scorchChannel x g) = fAdd (clipRule (fMul x g)) (fMul k0_3 (dAbs (clipRule (fMul x g)))) := rfl

/-- Ember.SAMPLE (R234): the output pair and the unit after it. -/
theorem valueOf_emberSample (u : Ember) (l r m : F32) :
    valueOf (u.sample l r m) =
      (let sL := fAdd (fMul k0_7 l) (fMul k0_3 u.prevL)
       let sR := fAdd (fMul k0_7 r) (fMul k0_3 u.prevR)
       ((xf l (fMul (emberRule sL) k0_7) m, xf r (fMul (emberRule sR) k0_7) m), { u with prevL := sL, prevR := sR })) := by
  unfold Ember.sample
  simp (disch :=
    repeat' (first
      | with_reducible (first
        | exact Writer.pure _ | exact writer_emberChannel _ _ | exact writer_xfade2 _ _ _ _ _ | apply Writer.bind)
      | (intro x; try (obtain ⟨_, _⟩ := x); try dsimp only)))
      only [valueOf_bind, valueOf_pure, valueOf_emberChannel, valueOf_xfade2]

/-- Velvet.SAMPLE (R235): the output pair and the unit after it. -/
theorem valueOf_velvetSample (u : Velvet) (l r m : F32) :
    valueOf (u.sample l r m) =
      ((xf l (bqOut u.fL l) m, xf r (bqOut u.fR r) m), { u with fL := bqNext u.fL l, fR := bqNext u.fR r }) := rfl

/-- Drift.SAMPLE (R236): the output pair and the unit after it. -/
theorem valueOf_driftSample (sr : F32) (u : Drift) (l r m : F32) :
    valueOf (Drift.sample sr u l r m) =
      (let q := fAdd u.p k0_25
       let pR := if dGe q k1 then fSub q k1 else q
       let lag := fun p => fMul (fAdd k0_015 (fMul k0_012 (sineRule p))) sr
       ((xf l (fMul k0_7 (fracRule u.d .left (lag u.p))) m, xf r (fMul k0_7 (fracRule u.d .right (lag pR))) m),
        { u with d := pushRule u.d l r, p := lfoRule u.p k0_3 sr })) := by
  unfold Drift.sample
  simp (disch :=
    repeat' (first
      | with_reducible (first
        | exact Writer.pure _ | exact writer_driftRight _ | exact writer_driftLag _ _ | exact writer_cReadF _ _ _
        | exact writer_cPush _ _ _ | exact writer_lfoAdvance _ _ _ | exact writer_cMul _ _
        | exact writer_xfade2 _ _ _ _ _ | apply Writer.bind)
      | (intro x; try (obtain ⟨_, _⟩ := x); try dsimp only)))
      only [valueOf_bind, valueOf_pure, valueOf_driftRight, valueOf_driftLag, valueOf_cReadF, valueOf_cPush,
        valueOf_lfoAdvance, valueOf_cMul, valueOf_xfade2]

/-- Echo.SAMPLE (R237): the output pair and the unit after it. -/
theorem valueOf_echoSample (sr : F32) (u : Echo) (l r m : F32) :
    valueOf (Echo.sample sr u l r m) =
      (let t := fAdd (fMul k0_35 sr) (fMul k15 (sineRule u.p))
       let aL := fracRule u.d .left t
       let aR := fracRule u.d .right t
       let wL := bqOut u.fL aL
       let wR := bqOut u.fR aR
       ((xf l wL m, xf r wR m),
        { u with d := pushRule u.d (fAdd l (fMul wL k0_4)) (fAdd r (fMul wR k0_4)), p := lfoRule u.p k0_5 sr,
                 fL := bqNext u.fL aL, fR := bqNext u.fR aR })) := by
  unfold Echo.sample
  simp (disch :=
    repeat' (first
      | with_reducible (first
        | exact Writer.pure _ | exact writer_cAdd _ _ | exact writer_cMul _ _ | exact writer_lfoSine _
        | exact writer_cReadF _ _ _ | exact writer_bqProcess _ _ | exact writer_cPush _ _ _
        | exact writer_lfoAdvance _ _ _ | exact writer_xfade2 _ _ _ _ _ | apply Writer.bind)
      | (intro x; try (obtain ⟨_, _⟩ := x); try dsimp only)))
      only [valueOf_bind, valueOf_pure, valueOf_cAdd, valueOf_cMul, valueOf_lfoSine, valueOf_cReadF,
        valueOf_bqProcess, valueOf_cPush, valueOf_lfoAdvance, valueOf_xfade2]

/-- Haze.SAMPLE (R238): the output pair and the unit after it. -/
theorem valueOf_hazeSample (u : Haze) (l r m : F32) :
    valueOf (u.sample l r m) =
      (let aL := tapRule u.combA .left u.lagA
       let aR := tapRule u.combA .right u.lagA
       let xL := fAdd (fMul k0_6 aL) (fMul k0_4 (tapRule u.combB .left u.lagB))
       let xR := fAdd (fMul k0_6 aR) (fMul k0_4 (tapRule u.combB .right u.lagB))
       let wL := bqOut u.fL xL
       let wR := bqOut u.fR xR
       ((xf l wL m, xf r wR m),
        { u with combA := pushRule u.combA (fAdd l (fMul k0_45 wR)) (fAdd r (fMul k0_5 wL)),
                 combB := pushRule u.combB (fAdd l (fMul k0_3 aR)) (fAdd r (fMul k0_3 aL)),
                 fL := bqNext u.fL xL, fR := bqNext u.fR xR })) := rfl

/-- Fracture.SAMPLE (R250): the output pair and the unit after it. -/
theorem valueOf_fractureSample (u : Fracture) (l r m : F32) :
    valueOf (u.sample l r m) =
      (let g := fAdd k1 (fMul m k4)
       let nb := fSub k12 (fMul m k4)
       ((xf l (quantRule (clipRule (fMul l g)) nb) m, xf r (quantRule (clipRule (fMul r g)) nb) m), u)) := rfl

/-- Prism.SAMPLE (R251): the output pair and the unit after it. -/
theorem valueOf_prismSample (u : Prism) (l r m : F32) :
    valueOf (u.sample l r m) =
      (let fb := fAdd k0_5 (fMul m k0_35)
       let wL := fAdd l (fMul u.zL fb)
       let wR := fAdd r (fMul u.zR fb)
       ((xf l wL m, xf r wR m), { u with zL := wL, zR := wR })) := rfl

/-- Phase.SAMPLE (R252): the output pair and the unit after it. -/
theorem valueOf_phaseSample (sr : F32) (u : Phase) (l r m : F32) :
    valueOf (Phase.sample sr u l r m) =
      (let t := fMul (fMul (triRule u.p) k0_008) sr
       let aL := fracRule u.d .left t
       let aR := fracRule u.d .right t
       let fb := fAdd k0_5 (fMul m k0_3)
       ((xf l (fSub l (fMul aL k0_7)) m, xf r (fSub r (fMul aR k0_7)) m),
        { u with d := pushRule u.d (fAdd l (fMul aL fb)) (fAdd r (fMul aR fb)), p := lfoRule u.p k0_2 sr })) := by
  unfold Phase.sample
  simp (disch :=
    repeat' (first
      | with_reducible (first
        | exact Writer.pure _ | exact writer_lfoTri _ | exact writer_cMul _ _ | exact writer_cReadF _ _ _
        | exact writer_cAdd _ _ | exact writer_cSub _ _ | exact writer_cPush _ _ _ | exact writer_lfoAdvance _ _ _
        | exact writer_xfade2 _ _ _ _ _ | apply Writer.bind)
      | (intro x; try (obtain ⟨_, _⟩ := x); try dsimp only)))
      only [valueOf_bind, valueOf_pure, valueOf_lfoTri, valueOf_cMul, valueOf_cReadF, valueOf_cAdd, valueOf_cSub,
        valueOf_cPush, valueOf_lfoAdvance, valueOf_xfade2]

/-- Cascade.SAMPLE (R253): the output pair and the unit after it. -/
theorem valueOf_cascadeSample (u : Cascade) (l r m : F32) :
    valueOf (u.sample l r m) =
      (let wet := fun ch =>
         fMul (fAdd (fAdd (fAdd (fMul k0_7 (tapRule u.d ch u.lag0)) (fMul k0_5 (tapRule u.d ch u.lag1)))
           (fMul k0_35 (tapRule u.d ch u.lag2))) (fMul k0_2 (tapRule u.d ch u.lag3))) k0_5
       let fb := fun x ch => fAdd x (fMul k0_15 (tapRule u.d ch u.lag3))
       ((xf l (wet .left) m, xf r (wet .right) m), { u with d := pushRule u.d (fb l .left) (fb r .right) })) := rfl

/-- Glisten.SAMPLE (R254): the output pair and the unit after it. -/
theorem valueOf_glistenSample (u : Glisten) (l r m : F32) :
    valueOf (u.sample l r m) =
      (let mL := tapRule u.main .left u.lagM
       let mR := tapRule u.main .right u.lagM
       let hL := u.shim.get .left u.shimR
       let hR := u.shim.get .right u.shimR
       ((xf l (fAdd (fMul k0_6 mL) (fMul k0_3 (bqOut u.fL hL))) m,
         xf r (fAdd (fMul k0_6 mR) (fMul k0_3 (bqOut u.fR hR))) m),
        { u with main := pushRule u.main (fAdd l (fMul glistenFb mL)) (fAdd r (fMul glistenFb mR)),
                 shim := pushRule u.shim l r, shimR := (u.shimR + 2) % u.shim.cap,
                 fL := bqNext u.fL hL, fR := bqNext u.fR hR })) := rfl

/-- Scorch.SAMPLE (R265): the output pair and the unit after it. -/
theorem valueOf_scorchSample (u : Scorch) (l r m : F32) :
    valueOf (u.sample l r m) =
      (let g := fAdd k1 (fMul m k8)
       let wet := fun x => fAdd (clipRule (fMul x g)) (fMul k0_3 (dAbs (clipRule (fMul x g))))
       ((xf l (wet l) m, xf r (wet r) m), u)) := rfl

/-- Snarl.SAMPLE (R266): the output pair and the unit after it. -/
theorem valueOf_snarlSample (u : Snarl) (l r m : F32) :
    valueOf (u.sample l r m) =
      (let g := fAdd k1 (fMul m k3)
       ((xf l (tanhF (fMul (bqOut u.fL l) g)) m, xf r (tanhF (fMul (bqOut u.fR r) g)) m),
        { u with fL := bqNext u.fL l, fR := bqNext u.fR r })) := rfl

/-- Shred.SAMPLE (R267): the output pair and the unit after it. -/
theorem valueOf_shredSample (sr : F32) (u : Shred) (l r m : F32) :
    valueOf (Shred.sample sr u l r m) =
      (let c := sineRule u.p
       let k := fMul m k0_8
       ((xf l (fMul l c) k, xf r (fMul r c) k), { u with p := lfoRule u.p (fAdd k200 (fMul k300 m)) sr })) := by
  unfold Shred.sample
  simp (disch :=
    repeat' (first
      | with_reducible (first
        | exact Writer.pure _ | exact writer_lfoSine _ | exact writer_cAdd _ _ | exact writer_cMul _ _
        | exact writer_lfoAdvance _ _ _ | exact writer_xfade2 _ _ _ _ _ | apply Writer.bind)
      | (intro x; try (obtain ⟨_, _⟩ := x); try dsimp only)))
      only [valueOf_bind, valueOf_pure, valueOf_lfoSine, valueOf_cAdd, valueOf_cMul, valueOf_lfoAdvance,
        valueOf_xfade2]

/-- Grind.SAMPLE (R268): the output pair and the unit after it. -/
theorem valueOf_grindSample (u : Grind) (l r m : F32) :
    valueOf (u.sample l r m) =
      (let hold := 1 + floorNat (fMul m k7)
       let nb := fSub k16 (fMul m k12)
       let hL := if u.cnt = 0 then quantRule (tapRule u.d .left u.lag) nb else u.heldL
       let hR := if u.cnt = 0 then quantRule (tapRule u.d .right u.lag) nb else u.heldR
       ((xf l hL m, xf r hR m),
        { u with d := pushRule u.d (fAdd l (fMul k0_5 hL)) (fAdd r (fMul k0_5 hR)), heldL := hL, heldR := hR,
                 cnt := if hold ≤ u.cnt + 1 then 0 else u.cnt + 1 })) := by
  unfold Grind.sample
  by_cases h : u.cnt = 0
  · simp (disch :=
      repeat' (first
        | with_reducible (first
          | exact Writer.pure _ | exact writer_quant _ _ | exact writer_cReadI _ _ | exact writer_cSub _ _
          | exact writer_cMul _ _ | exact writer_cAdd _ _ | exact writer_cPush _ _ _ | exact writer_xfade2 _ _ _ _ _
          | apply Writer.bind)
        | (intro x; try (obtain ⟨_, _⟩ := x); try dsimp only)))
        only [valueOf_bind, valueOf_pure, valueOf_quant, valueOf_cReadI, valueOf_cSub, valueOf_cMul, valueOf_cAdd,
          valueOf_cPush, valueOf_xfade2, h, if_true, grindCount]
    rfl
  · simp (disch :=
      repeat' (first
        | with_reducible (first
          | exact Writer.pure _ | exact writer_cReadI _ _ | exact writer_cSub _ _ | exact writer_cMul _ _
          | exact writer_cAdd _ _ | exact writer_cPush _ _ _ | exact writer_xfade2 _ _ _ _ _ | apply Writer.bind)
        | (intro x; try (obtain ⟨_, _⟩ := x); try dsimp only)))
        only [valueOf_bind, valueOf_pure, valueOf_cMul, valueOf_cAdd, valueOf_cPush,
          valueOf_xfade2, h, if_false, grindCount]
    rfl

/-- Rust.SAMPLE (R269): the output pair and the unit after it. -/
theorem valueOf_rustSample (u : Rust) (l r m : F32) :
    valueOf (u.sample l r m) =
      (let env := envRule u.env (dMax (dAbs l) (dAbs r)) u.ca u.cr
       let a := fun ch => tapRule u.combA ch u.lagA
       let b := fun ch => tapRule u.combB ch u.lagB
       let wet := fun ch => fMul (fMul (fAdd (a ch) (b ch)) k0_5) (gateRule env)
       ((xf l (wet .left) m, xf r (wet .right) m),
        { u with combA := pushRule u.combA (fAdd l (fMul rustFb (b .left))) (fAdd r (fMul rustFb (b .right))),
                 combB := pushRule u.combB (fAdd l (fMul rustFb (a .left))) (fAdd r (fMul rustFb (a .right))),
                 env := env })) := by
  unfold Rust.sample
  simp (disch :=
    repeat' (first
      | with_reducible (first
        | exact Writer.pure _ | exact writer_envStep _ _ _ _ | exact writer_gate _ | exact writer_cReadI _ _
        | exact writer_cAdd _ _ | exact writer_cMul _ _ | exact writer_cPush _ _ _ | exact writer_xfade2 _ _ _ _ _
        | apply Writer.bind)
      | (intro x; try (obtain ⟨_, _⟩ := x); try dsimp only)))
      only [valueOf_bind, valueOf_pure, valueOf_envStep, valueOf_gate, valueOf_cReadI, valueOf_cAdd, valueOf_cMul,
        valueOf_cPush, valueOf_xfade2]

end Sys2Proof.Machine
end

