-- ==== Sys2Proof/Laws/Frames.lean ====
section
/-! SUPPORT. What a block computes (45_units_cathode.md R230, 48_preamp.md R280): the value of a unit's code and of PREAMP
over `n` frames is the fold of the frame rules of Safety.lean. -/

namespace Sys2Proof.Machine

open Sys2Proof Sys2Proof.Safety

/-- A word of the buffer, read. -/
theorem valueOf_bufRead_getD (b : SampleBuffer) (ch : Channel) {i : Nat} (hi : i < Config.maxblkMax) :
    valueOf (bufRead b ch i) = (b.get? ch i).getD 0 := by
  have h : ¬ Config.maxblkMax ≤ i := by omega
  simp only [valueOf, bufRead, StateT.run, h, if_false]
  cases b.get? ch i <;> rfl

/-- The loop of a unit is its frames in order, for a rule `F` of one frame of the state that `put` makes of the unit's
registers and the buffer. -/
theorem unitFrames_fold {U : Type} {mixNext : U → Calc (F32 × U)}
    {sample : U → F32 → F32 → F32 → Calc ((F32 × F32) × U)} (hm : ∀ u, Writer (mixNext u))
    (hs : ∀ u l r m, Writer (sample u l r m)) (put : U → SampleBuffer → State) (F : State → Nat → State)
    (hF : ∀ x b i, F (put x b) i =
      if dLt (valueOf (mixNext x)).1 mixSilence then put (valueOf (mixNext x)).2 b
      else
        let y := valueOf (sample (valueOf (mixNext x)).2 ((b.get? .left i).getD 0) ((b.get? .right i).getD 0)
          (valueOf (mixNext x)).1)
        put y.2 (writeFrame b i y.1.1 y.1.2))
    (k i : Nat) (x : U) (b : SampleBuffer) (h : i + k ≤ Config.maxblkMax) :
    put (valueOf (unitFrames mixNext sample k i x b)).1 (valueOf (unitFrames mixNext sample k i x b)).2 =
      (List.range' i k).foldl F (put x b) := by
  induction k generalizing i x b with
  | zero => rfl
  | succ k ih =>
    rw [valueOf_unitFrames_succ hm hs, List.range'_succ, List.foldl_cons, hF,
      valueOf_bufRead_getD _ _ (by omega), valueOf_bufRead_getD _ _ (by omega)]
    split
    · exact ih _ _ _ (by omega)
    · exact ih _ _ _ (by omega)

/-- The advance of `Ember.mix` (R230). -/
theorem valueOf_emberMix (u : Ember) : valueOf u.mixNext = ((nextRule u.mix).1, { u with mix := (nextRule u.mix).2 }) := by
  unfold Ember.mixNext
  rw [valueOf_bind _ (fun _ => Writer.pure _), valueOf_next, valueOf_pure]

/-- A block of Ember (R234). -/
theorem valueOf_emberBlock (s : State) {n : Nat} (h : n ≤ Config.maxblkMax) :
    valueOf (unitProcess .ember n s) = (List.range n).foldl (unitFrame .ember) (blockStarted .ember s) := by
  rw [unitProcess, valueOf_bind _ (fun _ => Writer.pure _), valueOf_pure, Ember.run, List.range_eq_range']
  refine unitFrames_fold writer_emberMix writer_emberSample
    (fun x b => { s with units := { s.units with ember := x }, buf := b }) _ (fun x b i => ?_) n 0 _ _ (by omega)
  rw [valueOf_emberMix, valueOf_emberSample]
  rfl

/-- The advance of `Velvet.mix` (R230). -/
theorem valueOf_velvetMix (u : Velvet) : valueOf u.mixNext = ((nextRule u.mix).1, { u with mix := (nextRule u.mix).2 }) := by
  unfold Velvet.mixNext
  rw [valueOf_bind _ (fun _ => Writer.pure _), valueOf_next, valueOf_pure]

/-- A block of Velvet (R235). -/
theorem valueOf_velvetBlock (s : State) {n : Nat} (h : n ≤ Config.maxblkMax) :
    valueOf (unitProcess .velvet n s) = (List.range n).foldl (unitFrame .velvet) (blockStarted .velvet s) := by
  rw [unitProcess, valueOf_bind _ (fun _ => Writer.pure _), valueOf_pure, Velvet.run, List.range_eq_range',
    valueOf_bind _ (fun _ => writer_unitFrames writer_velvetMix writer_velvetSample _ _ _ _)]
  refine unitFrames_fold writer_velvetMix writer_velvetSample
    (fun x b => { s with units := { s.units with velvet := x }, buf := b }) _ (fun x b i => ?_) n 0 _ _ (by omega)
  rw [valueOf_velvetMix, valueOf_velvetSample]
  rfl

/-- The advance of `Drift.mix` (R230). -/
theorem valueOf_driftMix (u : Drift) : valueOf u.mixNext = ((nextRule u.mix).1, { u with mix := (nextRule u.mix).2 }) := by
  unfold Drift.mixNext
  rw [valueOf_bind _ (fun _ => Writer.pure _), valueOf_next, valueOf_pure]

/-- A block of Drift (R236). -/
theorem valueOf_driftBlock (s : State) {n : Nat} (h : n ≤ Config.maxblkMax) :
    valueOf (unitProcess .drift n s) = (List.range n).foldl (unitFrame .drift) (blockStarted .drift s) := by
  rw [unitProcess, valueOf_bind _ (fun _ => Writer.pure _), valueOf_pure, Drift.run, List.range_eq_range']
  refine unitFrames_fold writer_driftMix (writer_driftSample s.sr)
    (fun x b => { s with units := { s.units with drift := x }, buf := b }) _ (fun x b i => ?_) n 0 _ _ (by omega)
  rw [valueOf_driftMix, valueOf_driftSample]
  rfl

/-- The advance of `Echo.mix` (R230). -/
theorem valueOf_echoMix (u : Echo) : valueOf u.mixNext = ((nextRule u.mix).1, { u with mix := (nextRule u.mix).2 }) := by
  unfold Echo.mixNext
  rw [valueOf_bind _ (fun _ => Writer.pure _), valueOf_next, valueOf_pure]

/-- A block of Echo (R237). -/
theorem valueOf_echoBlock (s : State) {n : Nat} (h : n ≤ Config.maxblkMax) :
    valueOf (unitProcess .echo n s) = (List.range n).foldl (unitFrame .echo) (blockStarted .echo s) := by
  rw [unitProcess, valueOf_bind _ (fun _ => Writer.pure _), valueOf_pure, Echo.run, List.range_eq_range']
  refine unitFrames_fold writer_echoMix (writer_echoSample s.sr)
    (fun x b => { s with units := { s.units with echo := x }, buf := b }) _ (fun x b i => ?_) n 0 _ _ (by omega)
  rw [valueOf_echoMix, valueOf_echoSample]
  rfl

/-- The advance of `Haze.mix` (R230). -/
theorem valueOf_hazeMix (u : Haze) : valueOf u.mixNext = ((nextRule u.mix).1, { u with mix := (nextRule u.mix).2 }) := by
  unfold Haze.mixNext
  rw [valueOf_bind _ (fun _ => Writer.pure _), valueOf_next, valueOf_pure]

/-- A block of Haze (R238). -/
theorem valueOf_hazeBlock (s : State) {n : Nat} (h : n ≤ Config.maxblkMax) :
    valueOf (unitProcess .haze n s) = (List.range n).foldl (unitFrame .haze) (blockStarted .haze s) := by
  rw [unitProcess, valueOf_bind _ (fun _ => Writer.pure _), valueOf_pure, Haze.run, List.range_eq_range']
  refine unitFrames_fold writer_hazeMix writer_hazeSample
    (fun x b => { s with units := { s.units with haze := x }, buf := b }) _ (fun x b i => ?_) n 0 _ _ (by omega)
  rw [valueOf_hazeMix, valueOf_hazeSample]
  rfl

/-- The advance of `Fracture.mix` (R230). -/
theorem valueOf_fractureMix (u : Fracture) : valueOf u.mixNext = ((nextRule u.mix).1, { u with mix := (nextRule u.mix).2 }) := by
  unfold Fracture.mixNext
  rw [valueOf_bind _ (fun _ => Writer.pure _), valueOf_next, valueOf_pure]

/-- A block of Fracture (R250). -/
theorem valueOf_fractureBlock (s : State) {n : Nat} (h : n ≤ Config.maxblkMax) :
    valueOf (unitProcess .fracture n s) = (List.range n).foldl (unitFrame .fracture) (blockStarted .fracture s) := by
  rw [unitProcess, valueOf_bind _ (fun _ => Writer.pure _), valueOf_pure, Fracture.run, List.range_eq_range']
  refine unitFrames_fold writer_fractureMix writer_fractureSample
    (fun x b => { s with units := { s.units with fracture := x }, buf := b }) _ (fun x b i => ?_) n 0 _ _ (by omega)
  rw [valueOf_fractureMix, valueOf_fractureSample]
  rfl

/-- The advance of `Prism.mix` (R230). -/
theorem valueOf_prismMix (u : Prism) : valueOf u.mixNext = ((nextRule u.mix).1, { u with mix := (nextRule u.mix).2 }) := by
  unfold Prism.mixNext
  rw [valueOf_bind _ (fun _ => Writer.pure _), valueOf_next, valueOf_pure]

/-- A block of Prism (R251). -/
theorem valueOf_prismBlock (s : State) {n : Nat} (h : n ≤ Config.maxblkMax) :
    valueOf (unitProcess .prism n s) = (List.range n).foldl (unitFrame .prism) (blockStarted .prism s) := by
  rw [unitProcess, valueOf_bind _ (fun _ => Writer.pure _), valueOf_pure, Prism.run, List.range_eq_range']
  refine unitFrames_fold writer_prismMix writer_prismSample
    (fun x b => { s with units := { s.units with prism := x }, buf := b }) _ (fun x b i => ?_) n 0 _ _ (by omega)
  rw [valueOf_prismMix, valueOf_prismSample]
  rfl

/-- The advance of `Phase.mix` (R230). -/
theorem valueOf_phaseMix (u : Phase) : valueOf u.mixNext = ((nextRule u.mix).1, { u with mix := (nextRule u.mix).2 }) := by
  unfold Phase.mixNext
  rw [valueOf_bind _ (fun _ => Writer.pure _), valueOf_next, valueOf_pure]

/-- A block of Phase (R252). -/
theorem valueOf_phaseBlock (s : State) {n : Nat} (h : n ≤ Config.maxblkMax) :
    valueOf (unitProcess .phase n s) = (List.range n).foldl (unitFrame .phase) (blockStarted .phase s) := by
  rw [unitProcess, valueOf_bind _ (fun _ => Writer.pure _), valueOf_pure, Phase.run, List.range_eq_range']
  refine unitFrames_fold writer_phaseMix (writer_phaseSample s.sr)
    (fun x b => { s with units := { s.units with phase := x }, buf := b }) _ (fun x b i => ?_) n 0 _ _ (by omega)
  rw [valueOf_phaseMix, valueOf_phaseSample]
  rfl

/-- The advance of `Cascade.mix` (R230). -/
theorem valueOf_cascadeMix (u : Cascade) : valueOf u.mixNext = ((nextRule u.mix).1, { u with mix := (nextRule u.mix).2 }) := by
  unfold Cascade.mixNext
  rw [valueOf_bind _ (fun _ => Writer.pure _), valueOf_next, valueOf_pure]

/-- A block of Cascade (R253). -/
theorem valueOf_cascadeBlock (s : State) {n : Nat} (h : n ≤ Config.maxblkMax) :
    valueOf (unitProcess .cascade n s) = (List.range n).foldl (unitFrame .cascade) (blockStarted .cascade s) := by
  rw [unitProcess, valueOf_bind _ (fun _ => Writer.pure _), valueOf_pure, Cascade.run, List.range_eq_range']
  refine unitFrames_fold writer_cascadeMix writer_cascadeSample
    (fun x b => { s with units := { s.units with cascade := x }, buf := b }) _ (fun x b i => ?_) n 0 _ _ (by omega)
  rw [valueOf_cascadeMix, valueOf_cascadeSample]
  rfl

/-- The advance of `Glisten.mix` (R230). -/
theorem valueOf_glistenMix (u : Glisten) : valueOf u.mixNext = ((nextRule u.mix).1, { u with mix := (nextRule u.mix).2 }) := by
  unfold Glisten.mixNext
  rw [valueOf_bind _ (fun _ => Writer.pure _), valueOf_next, valueOf_pure]

/-- A block of Glisten (R254). -/
theorem valueOf_glistenBlock (s : State) {n : Nat} (h : n ≤ Config.maxblkMax) :
    valueOf (unitProcess .glisten n s) = (List.range n).foldl (unitFrame .glisten) (blockStarted .glisten s) := by
  rw [unitProcess, valueOf_bind _ (fun _ => Writer.pure _), valueOf_pure, Glisten.run, List.range_eq_range']
  refine unitFrames_fold writer_glistenMix writer_glistenSample
    (fun x b => { s with units := { s.units with glisten := x }, buf := b }) _ (fun x b i => ?_) n 0 _ _ (by omega)
  rw [valueOf_glistenMix, valueOf_glistenSample]
  rfl

/-- The advance of `Scorch.mix` (R230). -/
theorem valueOf_scorchMix (u : Scorch) : valueOf u.mixNext = ((nextRule u.mix).1, { u with mix := (nextRule u.mix).2 }) := by
  unfold Scorch.mixNext
  rw [valueOf_bind _ (fun _ => Writer.pure _), valueOf_next, valueOf_pure]

/-- A block of Scorch (R265). -/
theorem valueOf_scorchBlock (s : State) {n : Nat} (h : n ≤ Config.maxblkMax) :
    valueOf (unitProcess .scorch n s) = (List.range n).foldl (unitFrame .scorch) (blockStarted .scorch s) := by
  rw [unitProcess, valueOf_bind _ (fun _ => Writer.pure _), valueOf_pure, Scorch.run, List.range_eq_range']
  refine unitFrames_fold writer_scorchMix writer_scorchSample
    (fun x b => { s with units := { s.units with scorch := x }, buf := b }) _ (fun x b i => ?_) n 0 _ _ (by omega)
  rw [valueOf_scorchMix, valueOf_scorchSample]
  rfl

/-- The advance of `Snarl.mix` (R230). -/
theorem valueOf_snarlMix (u : Snarl) : valueOf u.mixNext = ((nextRule u.mix).1, { u with mix := (nextRule u.mix).2 }) := by
  unfold Snarl.mixNext
  rw [valueOf_bind _ (fun _ => Writer.pure _), valueOf_next, valueOf_pure]

/-- A block of Snarl (R266). -/
theorem valueOf_snarlBlock (s : State) {n : Nat} (h : n ≤ Config.maxblkMax) :
    valueOf (unitProcess .snarl n s) = (List.range n).foldl (unitFrame .snarl) (blockStarted .snarl s) := by
  rw [unitProcess, valueOf_bind _ (fun _ => Writer.pure _), valueOf_pure, Snarl.run, List.range_eq_range',
    valueOf_bind _ (fun _ => writer_unitFrames writer_snarlMix writer_snarlSample _ _ _ _)]
  refine unitFrames_fold writer_snarlMix writer_snarlSample
    (fun x b => { s with units := { s.units with snarl := x }, buf := b }) _ (fun x b i => ?_) n 0 _ _ (by omega)
  rw [valueOf_snarlMix, valueOf_snarlSample]
  rfl

/-- The advance of `Shred.mix` (R230). -/
theorem valueOf_shredMix (u : Shred) : valueOf u.mixNext = ((nextRule u.mix).1, { u with mix := (nextRule u.mix).2 }) := by
  unfold Shred.mixNext
  rw [valueOf_bind _ (fun _ => Writer.pure _), valueOf_next, valueOf_pure]

/-- A block of Shred (R267). -/
theorem valueOf_shredBlock (s : State) {n : Nat} (h : n ≤ Config.maxblkMax) :
    valueOf (unitProcess .shred n s) = (List.range n).foldl (unitFrame .shred) (blockStarted .shred s) := by
  rw [unitProcess, valueOf_bind _ (fun _ => Writer.pure _), valueOf_pure, Shred.run, List.range_eq_range']
  refine unitFrames_fold writer_shredMix (writer_shredSample s.sr)
    (fun x b => { s with units := { s.units with shred := x }, buf := b }) _ (fun x b i => ?_) n 0 _ _ (by omega)
  rw [valueOf_shredMix, valueOf_shredSample]
  rfl

/-- The advance of `Grind.mix` (R230). -/
theorem valueOf_grindMix (u : Grind) : valueOf u.mixNext = ((nextRule u.mix).1, { u with mix := (nextRule u.mix).2 }) := by
  unfold Grind.mixNext
  rw [valueOf_bind _ (fun _ => Writer.pure _), valueOf_next, valueOf_pure]

/-- A block of Grind (R268). -/
theorem valueOf_grindBlock (s : State) {n : Nat} (h : n ≤ Config.maxblkMax) :
    valueOf (unitProcess .grind n s) = (List.range n).foldl (unitFrame .grind) (blockStarted .grind s) := by
  rw [unitProcess, valueOf_bind _ (fun _ => Writer.pure _), valueOf_pure, Grind.run, List.range_eq_range']
  refine unitFrames_fold writer_grindMix writer_grindSample
    (fun x b => { s with units := { s.units with grind := x }, buf := b }) _ (fun x b i => ?_) n 0 _ _ (by omega)
  rw [valueOf_grindMix, valueOf_grindSample]
  rfl

/-- The advance of `Rust.mix` (R230). -/
theorem valueOf_rustMix (u : Rust) : valueOf u.mixNext = ((nextRule u.mix).1, { u with mix := (nextRule u.mix).2 }) := by
  unfold Rust.mixNext
  rw [valueOf_bind _ (fun _ => Writer.pure _), valueOf_next, valueOf_pure]

/-- A block of Rust (R269). -/
theorem valueOf_rustBlock (s : State) {n : Nat} (h : n ≤ Config.maxblkMax) :
    valueOf (unitProcess .rust n s) = (List.range n).foldl (unitFrame .rust) (blockStarted .rust s) := by
  rw [unitProcess, valueOf_bind _ (fun _ => Writer.pure _), valueOf_pure, Rust.run, List.range_eq_range']
  refine unitFrames_fold writer_rustMix writer_rustSample
    (fun x b => { s with units := { s.units with rust := x }, buf := b }) _ (fun x b i => ?_) n 0 _ _ (by omega)
  rw [valueOf_rustMix, valueOf_rustSample]
  rfl

/-- A block of any unit, by its tag. -/
theorem valueOf_unitBlock (u : UnitId) (s : State) {n : Nat} (h : n ≤ Config.maxblkMax) :
    valueOf (unitProcess u n s) = (List.range n).foldl (unitFrame u) (blockStarted u s) := by
  cases u
  · exact valueOf_emberBlock s h
  · exact valueOf_velvetBlock s h
  · exact valueOf_driftBlock s h
  · exact valueOf_echoBlock s h
  · exact valueOf_hazeBlock s h
  · exact valueOf_fractureBlock s h
  · exact valueOf_prismBlock s h
  · exact valueOf_phaseBlock s h
  · exact valueOf_cascadeBlock s h
  · exact valueOf_glistenBlock s h
  · exact valueOf_scorchBlock s h
  · exact valueOf_snarlBlock s h
  · exact valueOf_shredBlock s h
  · exact valueOf_grindBlock s h
  · exact valueOf_rustBlock s h

/-- The two shapers on one driven sample (R280). -/
theorem valueOf_preampShape (x g : F32) : valueOf (preampShape x g) = softRule (xfmrRule (fMul x g)) := by
  unfold preampShape
  rw [valueOf_bind _ fun _ => ?_, valueOf_bind _ fun _ => writer_softclip _, valueOf_cMul, valueOf_xfmrSat, valueOf_softclip]
  exact Writer.bind (writer_xfmrSat _) fun _ => writer_softclip _

/-- The three smoother advances of a frame (R280). -/
theorem valueOf_preampAdvance (p : Preamp) :
    valueOf p.advance = (((nextRule p.drive).1, (nextRule p.tone).1, (nextRule p.out).1),
      { p with drive := (nextRule p.drive).2, tone := (nextRule p.tone).2, out := (nextRule p.out).2 }) := by
  unfold Preamp.advance
  simp (disch :=
    repeat' (first
      | with_reducible (first | exact Writer.pure _ | exact writer_next _ | apply Writer.bind)
      | (intro x; try (obtain ⟨_, _⟩ := x); try dsimp only)))
      only [valueOf_bind, valueOf_pure, valueOf_next]

/-- One frame of the preamp (48_preamp.md R280): the output pair and the preamp after it. -/
theorem valueOf_preampFrame (sr : F32) (p : Preamp) (l r : F32) :
    valueOf (p.frame sr l r) =
      (let og := (nextRule p.out).1
       let g := fAdd k1 (fMul (nextRule p.drive).1 k3)
       let c := shelfCoefs (nextRule p.tone).1 sr
       let shL := withCoefs p.shelfL c
       let shR := withCoefs p.shelfR c
       let xL := softRule (xfmrRule (fMul l g))
       let xR := softRule (xfmrRule (fMul r g))
       ((fMul (bqOut p.dcL (bqOut shL xL)) og, fMul (bqOut p.dcR (bqOut shR xR)) og),
        { drive := (nextRule p.drive).2, tone := (nextRule p.tone).2, out := (nextRule p.out).2
          shelfL := bqNext shL xL, shelfR := bqNext shR xR
          dcL := bqNext p.dcL (bqOut shL xL), dcR := bqNext p.dcR (bqOut shR xR) })) := by
  unfold Preamp.frame
  simp (disch :=
    repeat' (first
      | with_reducible (first
        | exact Writer.pure _ | exact writer_setShelf _ _ _ | exact writer_cAdd _ _ | exact writer_cMul _ _
        | exact writer_preampShape _ _ | exact writer_bqProcess _ _ | apply Writer.bind)
      | (intro x; try (obtain ⟨_, _⟩ := x); try dsimp only)))
      only [valueOf_bind, valueOf_pure, valueOf_preampAdvance, valueOf_setShelf, valueOf_cAdd, valueOf_cMul,
        valueOf_preampShape, valueOf_bqProcess]

/-- The loop of PREAMP is its frames in order. -/
theorem preampFrames_fold (s : State) (k i : Nat) (p : Preamp) (b : SampleBuffer) (h : i + k ≤ Config.maxblkMax) :
    { s with pre := (valueOf (preampFrames s.sr k i p b)).1, buf := (valueOf (preampFrames s.sr k i p b)).2 } =
      (List.range' i k).foldl preampFrame { s with pre := p, buf := b } := by
  induction k generalizing i p b with
  | zero => rfl
  | succ k ih =>
    rw [valueOf_preampFrames_succ, List.range'_succ, List.foldl_cons, valueOf_bufRead_getD _ _ (by omega),
      valueOf_bufRead_getD _ _ (by omega), ih _ _ _ (by omega), valueOf_preampFrame]
    rfl

/-- A block of PREAMP (48_preamp.md R280). -/
theorem valueOf_preampBlock (s : State) {n : Nat} (h : n ≤ Config.maxblkMax) :
    valueOf (preamp n s) = (List.range n).foldl preampFrame s := by
  rw [preamp, valueOf_bind _ (fun _ => Writer.pure _), valueOf_pure, List.range_eq_range']
  exact preampFrames_fold s n 0 _ _ (by omega)

end Sys2Proof.Machine
end

