-- ==== Sys2Proof/Laws/PerInstr.lean ====
section
/-! SUPPORT. One law per instruction: what has an encoding decodes back to the instruction, every operand at every value
(30_encoding.md R100, R103, R105, R106); and the fields of the words `mkCmd`, `mkUnitWord` and `mkKindWord` build. -/

namespace Sys2Proof.Laws

open Sys2Proof

/-! ## Fields of a concatenation -/

/-- A field that lies wholly in the upper part of a concatenation. -/
theorem extract_upper {m n : Nat} (a : BitVec m) (b : BitVec n) (k l : Nat) (h : n ≤ k) :
    (a ++ b).extractLsb' k l = a.extractLsb' (k - n) l := by
  ext i hi
  simp [BitVec.getElem_extractLsb', BitVec.getLsbD_append, show ¬ k + i < n by omega,
    show k + i - n = k - n + i by omega]

/-- A field that lies wholly in the lower part of a concatenation. -/
theorem extract_lower {m n : Nat} (a : BitVec m) (b : BitVec n) (k l : Nat) (h : k + l ≤ n) :
    (a ++ b).extractLsb' k l = b.extractLsb' k l := by
  ext i hi
  simp [BitVec.getElem_extractLsb', BitVec.getLsbD_append, show k + i < n by omega]

/-- A whole word is its own field. -/
theorem extract_whole {n : Nat} (a : BitVec n) : a.extractLsb' 0 n = a := by
  ext i hi
  simp

/-! ## Command words -/

section
variable (op sel : BitVec 8) (idx : BitVec 16) (data : Word)

@[simp] theorem opField_mkCmd : opField (mkCmd op sel idx data) = op := by
  simp only [opField, mkCmd, extract_upper _ _ _ _ (show 32 ≤ 56 by omega), Nat.reduceSub,
    extract_upper _ _ _ _ (show 16 ≤ 24 by omega), extract_upper _ _ _ _ (show 8 ≤ 8 by omega), extract_whole]

@[simp] theorem selField_mkCmd : selField (mkCmd op sel idx data) = sel := by
  simp only [selField, mkCmd, extract_upper _ _ _ _ (show 32 ≤ 48 by omega), Nat.reduceSub,
    extract_upper _ _ _ _ (show 16 ≤ 16 by omega), extract_lower _ _ _ _ (show 0 + 8 ≤ 8 by omega), extract_whole]

@[simp] theorem idxField_mkCmd : idxField (mkCmd op sel idx data) = idx := by
  simp only [idxField, mkCmd, extract_upper _ _ _ _ (show 32 ≤ 32 by omega), Nat.reduceSub,
    extract_lower _ _ _ _ (show 0 + 16 ≤ 16 by omega), extract_whole]

@[simp] theorem dataField_mkCmd : dataField (mkCmd op sel idx data) = data := by
  simp only [dataField, mkCmd, extract_lower _ _ _ _ (show 0 + 32 ≤ 32 by omega), extract_whole]

end

/-- The byte of an opcode names it (R103). -/
theorem opcodeOf_byte (o : Opcode) : opcodeOf (opcodeByte o) = some o := by cases o <;> rfl

/-- A command word whose must-be-zero fields are zero decodes to the instruction with its fields. -/
theorem decode_mkCmd (o : Opcode) (sel : BitVec 8) (idx : BitVec 16) (data : Word)
    (h : mbzBroken o (mkCmd (opcodeByte o) sel idx data) = false) :
    decode (.cmd (mkCmd (opcodeByte o) sel idx data)) = some (instrOf o (mkCmd (opcodeByte o) sel idx data)) := by
  simp only [decode, decodeCmd, opField_mkCmd, opcodeOf_byte, h, Bool.false_eq_true, if_false]

/-! ## Sequencer words -/

/-- A tag names its unit (R105). -/
theorem unitOfTag_tag (u : UnitId) : unitOfTag (tagOf u) = some u := by cases u <;> rfl

/-- A filter's number names it (log 4). -/
theorem filterOf_byte (f : FilterId) : filterOf (filterByte f) = some f := by cases f <;> rfl

/-- A unit's sequencer word decodes to that unit over that many frames. -/
theorem decode_mkUnitWord (u : UnitId) (n : Word) :
    decode (.seq (mkUnitWord (tagOf u) n)) = some (unitInstr u n) := by
  simp only [decode, decodeSeq, mkUnitWord, extract_lower _ _ _ _ (show 0 + 8 ≤ 8 by omega), extract_whole, unitOfTag_tag,
    extract_upper _ _ _ _ (show 8 ≤ 40 by omega), extract_upper _ _ _ _ (show 8 ≤ 8 by omega), Nat.reduceSub,
    extract_upper _ _ _ _ (show 32 ≤ 32 by omega), extract_lower _ _ _ _ (show 0 + 32 ≤ 32 by omega), if_true]

/-- A filter kind's sequencer word decodes to that kind with its operands. -/
theorem decode_mkKindWord (k : FilterKind) (f : FilterId) (fc q sr g : F32) :
    decode (.seq (mkKindWord (kindByte k) (filterByte f) fc q sr g)) = kindInstr k f fc q sr g := by
  have h1 : unitOfTag (kindByte k) = none := by cases k <;> rfl
  have h2 : kindOf (kindByte k) = some k := by cases k <;> rfl
  simp only [decode, decodeSeq, mkKindWord, extract_lower _ _ _ _ (show 0 + 8 ≤ 8 by omega), extract_whole, h1, h2,
    extract_upper _ _ _ _ (show 8 ≤ 8 by omega), extract_upper _ _ _ _ (show 8 ≤ 16 by omega),
    extract_upper _ _ _ _ (show 8 ≤ 48 by omega), extract_upper _ _ _ _ (show 8 ≤ 80 by omega),
    extract_upper _ _ _ _ (show 8 ≤ 112 by omega), Nat.reduceSub,
    extract_upper _ _ _ _ (show 8 ≤ 40 by omega), extract_upper _ _ _ _ (show 8 ≤ 72 by omega),
    extract_upper _ _ _ _ (show 8 ≤ 104 by omega), extract_upper _ _ _ _ (show 32 ≤ 32 by omega),
    extract_upper _ _ _ _ (show 32 ≤ 64 by omega), extract_upper _ _ _ _ (show 32 ≤ 96 by omega),
    extract_lower _ _ _ _ (show 0 + 32 ≤ 32 by omega), filterOf_byte]

/-! ## The law, per instruction -/

namespace EncodeDecode

/-- The encoding of the instruction, where it has one, decodes to it. -/
def Statement (i : Instr) : Prop := ∀ c, encode i = some c → decode c = some i

theorem nop : Statement .nop := by
  rintro _ ⟨⟩
  exact (decode_mkCmd .nop 0 0 0 (by simp [mbzBroken, mustBeZero])).trans (by simp [instrOf])

theorem setcfg (sel : BitVec 8) (data : Word) : Statement (.setcfg sel data) := by
  rintro _ ⟨⟩
  exact (decode_mkCmd .setcfg sel 0 data (by simp [mbzBroken, mustBeZero])).trans (by simp [instrOf])

theorem getcfg (sel : BitVec 8) : Statement (.getcfg sel) := by
  rintro _ ⟨⟩
  exact (decode_mkCmd .getcfg sel 0 0 (by simp [mbzBroken, mustBeZero])).trans (by simp [instrOf])

theorem prepare : Statement .prepare := by
  rintro _ ⟨⟩
  exact (decode_mkCmd .prepare 0 0 0 (by simp [mbzBroken, mustBeZero])).trans (by simp [instrOf])

theorem reset : Statement .reset := by
  rintro _ ⟨⟩
  exact (decode_mkCmd .reset 0 0 0 (by simp [mbzBroken, mustBeZero])).trans (by simp [instrOf])

theorem process (n : Word) : Statement (.process n) := by
  rintro _ ⟨⟩
  exact (decode_mkCmd .process 0 0 n (by simp [mbzBroken, mustBeZero])).trans (by simp [instrOf])

theorem wrbuf (sel : BitVec 8) (idx : BitVec 16) (data : Word) : Statement (.wrbuf sel idx data) := by
  rintro _ ⟨⟩
  exact (decode_mkCmd .wrbuf sel idx data (by simp [mbzBroken, mustBeZero])).trans (by simp [instrOf])

theorem rdbuf (sel : BitVec 8) (idx : BitVec 16) : Statement (.rdbuf sel idx) := by
  rintro _ ⟨⟩
  exact (decode_mkCmd .rdbuf sel idx 0 (by simp [mbzBroken, mustBeZero])).trans (by simp [instrOf])

theorem getstatus : Statement .getstatus := by
  rintro _ ⟨⟩
  exact (decode_mkCmd .getstatus 0 0 0 (by simp [mbzBroken, mustBeZero])).trans (by simp [instrOf])

theorem setparam (sel : BitVec 8) (data : Word) : Statement (.setparam sel data) := by
  rintro _ ⟨⟩
  exact (decode_mkCmd .setparam sel 0 data (by simp [mbzBroken, mustBeZero])).trans (by simp [instrOf])

theorem getparam (sel : BitVec 8) : Statement (.getparam sel) := by
  rintro _ ⟨⟩
  exact (decode_mkCmd .getparam sel 0 0 (by simp [mbzBroken, mustBeZero])).trans (by simp [instrOf])

theorem getmeter (sel : BitVec 8) : Statement (.getmeter sel) := by
  rintro _ ⟨⟩
  exact (decode_mkCmd .getmeter sel 0 0 (by simp [mbzBroken, mustBeZero])).trans (by simp [instrOf])

theorem unitEmber (n : Word) : Statement (.unitEmber n) := by
  rintro _ ⟨⟩
  exact decode_mkUnitWord .ember n

theorem unitVelvet (n : Word) : Statement (.unitVelvet n) := by
  rintro _ ⟨⟩
  exact decode_mkUnitWord .velvet n

theorem unitDrift (n : Word) : Statement (.unitDrift n) := by
  rintro _ ⟨⟩
  exact decode_mkUnitWord .drift n

theorem unitEcho (n : Word) : Statement (.unitEcho n) := by
  rintro _ ⟨⟩
  exact decode_mkUnitWord .echo n

theorem unitHaze (n : Word) : Statement (.unitHaze n) := by
  rintro _ ⟨⟩
  exact decode_mkUnitWord .haze n

theorem unitFracture (n : Word) : Statement (.unitFracture n) := by
  rintro _ ⟨⟩
  exact decode_mkUnitWord .fracture n

theorem unitPrism (n : Word) : Statement (.unitPrism n) := by
  rintro _ ⟨⟩
  exact decode_mkUnitWord .prism n

theorem unitPhase (n : Word) : Statement (.unitPhase n) := by
  rintro _ ⟨⟩
  exact decode_mkUnitWord .phase n

theorem unitCascade (n : Word) : Statement (.unitCascade n) := by
  rintro _ ⟨⟩
  exact decode_mkUnitWord .cascade n

theorem unitGlisten (n : Word) : Statement (.unitGlisten n) := by
  rintro _ ⟨⟩
  exact decode_mkUnitWord .glisten n

theorem unitScorch (n : Word) : Statement (.unitScorch n) := by
  rintro _ ⟨⟩
  exact decode_mkUnitWord .scorch n

theorem unitSnarl (n : Word) : Statement (.unitSnarl n) := by
  rintro _ ⟨⟩
  exact decode_mkUnitWord .snarl n

theorem unitShred (n : Word) : Statement (.unitShred n) := by
  rintro _ ⟨⟩
  exact decode_mkUnitWord .shred n

theorem unitGrind (n : Word) : Statement (.unitGrind n) := by
  rintro _ ⟨⟩
  exact decode_mkUnitWord .grind n

theorem unitRust (n : Word) : Statement (.unitRust n) := by
  rintro _ ⟨⟩
  exact decode_mkUnitWord .rust n

theorem bqSetcLp (f : FilterId) (fc : F32) (q : F32) (sr : F32) : Statement (.bqSetcLp f fc q sr) := by
  rintro _ ⟨⟩
  exact decode_mkKindWord .lp f fc q sr 0

theorem bqSetcHp (f : FilterId) (fc : F32) (q : F32) (sr : F32) : Statement (.bqSetcHp f fc q sr) := by
  rintro _ ⟨⟩
  exact decode_mkKindWord .hp f fc q sr 0

theorem bqSetcBp (f : FilterId) (fc : F32) (q : F32) (sr : F32) : Statement (.bqSetcBp f fc q sr) := by
  rintro _ ⟨⟩
  exact decode_mkKindWord .bp f fc q sr 0

theorem bqSetcLs (f : FilterId) (fc : F32) (q : F32) (sr : F32) (g : F32) : Statement (.bqSetcLs f fc q sr g) := by
  rintro _ ⟨⟩
  exact decode_mkKindWord .ls f fc q sr g

theorem svReset (v : SmootherId) (sr : F32) (t : F32) : Statement (.svReset v sr t) := nofun

theorem svSnap (v : SmootherId) : Statement (.svSnap v) := nofun

theorem svSettarget (v : SmootherId) (t : F32) : Statement (.svSettarget v t) := nofun

theorem svNext (v : SmootherId) : Statement (.svNext v) := nofun

theorem svCurrent (v : SmootherId) : Statement (.svCurrent v) := nofun

theorem bqProcess (f : FilterId) (x : F32) : Statement (.bqProcess f x) := nofun

theorem bqReset (f : FilterId) : Statement (.bqReset f) := nofun

theorem bqSetc (f : FilterId) (k : FilterKind) (fc : F32) (q : F32) (sr : F32) (g : F32) : Statement (.bqSetc f k fc q sr g) := nofun

theorem dlSize (d : DelayId) (tmax : F32) (guard : Nat) (sr : F32) : Statement (.dlSize d tmax guard sr) := nofun

theorem dlClear (d : DelayId) : Statement (.dlClear d) := nofun

theorem dlWrite (d : DelayId) (vL : F32) (vR : F32) : Statement (.dlWrite d vL vR) := nofun

theorem dlReadi (d : DelayId) (lag : Nat) : Statement (.dlReadi d lag) := nofun

theorem dlReadf (d : DelayId) (ch : Channel) (t : F32) : Statement (.dlReadf d ch t) := nofun

theorem dlAdvance (d : DelayId) : Statement (.dlAdvance d) := nofun

theorem hardclip (x : F32) : Statement (.hardclip x) := nofun

theorem xfmrSat (x : F32) : Statement (.xfmrSat x) := nofun

theorem softclip (x : F32) : Statement (.softclip x) := nofun

theorem emberShape (x : F32) : Statement (.emberShape x) := nofun

theorem quant (x : F32) (nb : F32) : Statement (.quant x nb) := nofun

theorem lfoAdvance (p : F32) (rate : F32) (sr : F32) : Statement (.lfoAdvance p rate sr) := nofun

theorem lfoSine (p : F32) : Statement (.lfoSine p) := nofun

theorem lfoTri (p : F32) : Statement (.lfoTri p) := nofun

theorem envCoef (t : F32) (sr : F32) : Statement (.envCoef t sr) := nofun

theorem envStep (env : F32) (lvl : F32) (ca : F32) (cr : F32) : Statement (.envStep env lvl ca cr) := nofun

theorem gate (env : F32) : Statement (.gate env) := nofun

theorem meterUpdate (k : MeterId) (pk : F32) : Statement (.meterUpdate k pk) := nofun

theorem db2lin (o : F32) : Statement (.db2lin o) := nofun

theorem rectify (x : F32) : Statement (.rectify x) := nofun

theorem xfade (dry : F32) (wet : F32) (m : F32) : Statement (.xfade dry wet m) := nofun

theorem unitProcess (u : UnitId) (n : Word) : Statement (.unitProcess u n) := nofun

theorem unitSetmix (u : UnitId) (v : F32) : Statement (.unitSetmix u v) := nofun

theorem unitPrepare : Statement .unitPrepare := nofun

theorem unitReset : Statement .unitReset := nofun

theorem preamp (n : Word) : Statement (.preamp n) := nofun

theorem preampSetshelf (tn : F32) : Statement (.preampSetshelf tn) := nofun

theorem applyParams : Statement .applyParams := nofun

theorem resetState : Statement .resetState := nofun

theorem size : Statement .size := nofun

end EncodeDecode

end Sys2Proof.Laws
end

