-- ==== Sys2Proof/Laws/State.lean ====
section
/-! SUPPORT. The small lemmas of the state's named updates (Machine/Ops.lean): what each update leaves of every field of
State, and that the written entry is read back. -/

namespace Sys2Proof.Machine

open Sys2Proof

/-! ## `State.setHolder` -/

@[simp] theorem State.setHolder_cfg (s : State) (i : HolderId) (x : Word) : (s.setHolder i x).cfg = s.cfg := by
  cases i with
  | mix u => cases u <;> rfl
  | _ => rfl
@[simp] theorem State.setHolder_sr (s : State) (i : HolderId) (x : Word) : (s.setHolder i x).sr = s.sr := by
  cases i with
  | mix u => cases u <;> rfl
  | _ => rfl
@[simp] theorem State.setHolder_maxblk (s : State) (i : HolderId) (x : Word) : (s.setHolder i x).maxblk = s.maxblk := by
  cases i with
  | mix u => cases u <;> rfl
  | _ => rfl
@[simp] theorem State.setHolder_status (s : State) (i : HolderId) (x : Word) : (s.setHolder i x).status = s.status := by
  cases i with
  | mix u => cases u <;> rfl
  | _ => rfl
@[simp] theorem State.setHolder_bypassPrev (s : State) (i : HolderId) (x : Word) : (s.setHolder i x).bypassPrev = s.bypassPrev := by
  cases i with
  | mix u => cases u <;> rfl
  | _ => rfl
@[simp] theorem State.setHolder_family (s : State) (i : HolderId) (x : Word) : (s.setHolder i x).family = s.family := by
  cases i with
  | mix u => cases u <;> rfl
  | _ => rfl
@[simp] theorem State.setHolder_pre (s : State) (i : HolderId) (x : Word) : (s.setHolder i x).pre = s.pre := by
  cases i with
  | mix u => cases u <;> rfl
  | _ => rfl
@[simp] theorem State.setHolder_units (s : State) (i : HolderId) (x : Word) : (s.setHolder i x).units = s.units := by
  cases i with
  | mix u => cases u <;> rfl
  | _ => rfl
@[simp] theorem State.setHolder_meters (s : State) (i : HolderId) (x : Word) : (s.setHolder i x).meters = s.meters := by
  cases i with
  | mix u => cases u <;> rfl
  | _ => rfl
@[simp] theorem State.setHolder_buf (s : State) (i : HolderId) (x : Word) : (s.setHolder i x).buf = s.buf := by
  cases i with
  | mix u => cases u <;> rfl
  | _ => rfl
@[simp] theorem State.setHolder_audio (s : State) (i : HolderId) (x : Word) : (s.setHolder i x).audio = s.audio := by
  cases i with
  | mix u => cases u <;> rfl
  | _ => rfl
@[simp] theorem State.setHolder_control (s : State) (i : HolderId) (x : Word) : (s.setHolder i x).control = s.control := by
  cases i with
  | mix u => cases u <;> rfl
  | _ => rfl
@[simp] theorem State.setHolder_monitor (s : State) (i : HolderId) (x : Word) : (s.setHolder i x).monitor = s.monitor := by
  cases i with
  | mix u => cases u <;> rfl
  | _ => rfl
@[simp] theorem State.setHolder_granted (s : State) (i : HolderId) (x : Word) : (s.setHolder i x).granted = s.granted := by
  cases i with
  | mix u => cases u <;> rfl
  | _ => rfl
@[simp] theorem State.setHolder_serial (s : State) (i : HolderId) (x : Word) : (s.setHolder i x).serial = s.serial := by
  cases i with
  | mix u => cases u <;> rfl
  | _ => rfl
@[simp] theorem State.setHolder_dispatch (s : State) (i : HolderId) (x : Word) : (s.setHolder i x).dispatch = s.dispatch := by
  cases i with
  | mix u => cases u <;> rfl
  | _ => rfl
@[simp] theorem State.setHolder_wires (s : State) (i : HolderId) (x : Word) : (s.setHolder i x).wires = s.wires := by
  cases i with
  | mix u => cases u <;> rfl
  | _ => rfl
@[simp] theorem State.setHolder_holder (s : State) (i : HolderId) (x : Word) : (s.setHolder i x).holder i = x := by
  cases i with
  | mix u => cases u <;> rfl
  | _ => rfl
@[simp] theorem State.setHolder_port (s : State) (i : HolderId) (x : Word) (p : Port) : (s.setHolder i x).port p = s.port p := by cases p <;> simp [State.port]

/-! ## `State.setCfg` -/

@[simp] theorem State.setCfg_sr (s : State) (i : CfgId) (x : Word) : (s.setCfg i x).sr = s.sr := by cases i <;> rfl
@[simp] theorem State.setCfg_maxblk (s : State) (i : CfgId) (x : Word) : (s.setCfg i x).maxblk = s.maxblk := by cases i <;> rfl
@[simp] theorem State.setCfg_holders (s : State) (i : CfgId) (x : Word) : (s.setCfg i x).holders = s.holders := by cases i <;> rfl
@[simp] theorem State.setCfg_status (s : State) (i : CfgId) (x : Word) : (s.setCfg i x).status = s.status := by cases i <;> rfl
@[simp] theorem State.setCfg_bypassPrev (s : State) (i : CfgId) (x : Word) : (s.setCfg i x).bypassPrev = s.bypassPrev := by cases i <;> rfl
@[simp] theorem State.setCfg_family (s : State) (i : CfgId) (x : Word) : (s.setCfg i x).family = s.family := by cases i <;> rfl
@[simp] theorem State.setCfg_pre (s : State) (i : CfgId) (x : Word) : (s.setCfg i x).pre = s.pre := by cases i <;> rfl
@[simp] theorem State.setCfg_units (s : State) (i : CfgId) (x : Word) : (s.setCfg i x).units = s.units := by cases i <;> rfl
@[simp] theorem State.setCfg_meters (s : State) (i : CfgId) (x : Word) : (s.setCfg i x).meters = s.meters := by cases i <;> rfl
@[simp] theorem State.setCfg_buf (s : State) (i : CfgId) (x : Word) : (s.setCfg i x).buf = s.buf := by cases i <;> rfl
@[simp] theorem State.setCfg_audio (s : State) (i : CfgId) (x : Word) : (s.setCfg i x).audio = s.audio := by cases i <;> rfl
@[simp] theorem State.setCfg_control (s : State) (i : CfgId) (x : Word) : (s.setCfg i x).control = s.control := by cases i <;> rfl
@[simp] theorem State.setCfg_monitor (s : State) (i : CfgId) (x : Word) : (s.setCfg i x).monitor = s.monitor := by cases i <;> rfl
@[simp] theorem State.setCfg_granted (s : State) (i : CfgId) (x : Word) : (s.setCfg i x).granted = s.granted := by cases i <;> rfl
@[simp] theorem State.setCfg_serial (s : State) (i : CfgId) (x : Word) : (s.setCfg i x).serial = s.serial := by cases i <;> rfl
@[simp] theorem State.setCfg_dispatch (s : State) (i : CfgId) (x : Word) : (s.setCfg i x).dispatch = s.dispatch := by cases i <;> rfl
@[simp] theorem State.setCfg_wires (s : State) (i : CfgId) (x : Word) : (s.setCfg i x).wires = s.wires := by cases i <;> rfl
@[simp] theorem State.setCfg_cfgReg (s : State) (i : CfgId) (x : Word) : (s.setCfg i x).cfgReg i = x := by cases i <;> rfl
@[simp] theorem State.setCfg_port (s : State) (i : CfgId) (x : Word) (p : Port) : (s.setCfg i x).port p = s.port p := by cases p <;> simp [State.port]

/-! ## `State.setMeter` -/

@[simp] theorem State.setMeter_cfg (s : State) (i : MeterId) (x : F32) : (s.setMeter i x).cfg = s.cfg := by cases i <;> rfl
@[simp] theorem State.setMeter_sr (s : State) (i : MeterId) (x : F32) : (s.setMeter i x).sr = s.sr := by cases i <;> rfl
@[simp] theorem State.setMeter_maxblk (s : State) (i : MeterId) (x : F32) : (s.setMeter i x).maxblk = s.maxblk := by cases i <;> rfl
@[simp] theorem State.setMeter_holders (s : State) (i : MeterId) (x : F32) : (s.setMeter i x).holders = s.holders := by cases i <;> rfl
@[simp] theorem State.setMeter_status (s : State) (i : MeterId) (x : F32) : (s.setMeter i x).status = s.status := by cases i <;> rfl
@[simp] theorem State.setMeter_bypassPrev (s : State) (i : MeterId) (x : F32) : (s.setMeter i x).bypassPrev = s.bypassPrev := by cases i <;> rfl
@[simp] theorem State.setMeter_family (s : State) (i : MeterId) (x : F32) : (s.setMeter i x).family = s.family := by cases i <;> rfl
@[simp] theorem State.setMeter_pre (s : State) (i : MeterId) (x : F32) : (s.setMeter i x).pre = s.pre := by cases i <;> rfl
@[simp] theorem State.setMeter_units (s : State) (i : MeterId) (x : F32) : (s.setMeter i x).units = s.units := by cases i <;> rfl
@[simp] theorem State.setMeter_buf (s : State) (i : MeterId) (x : F32) : (s.setMeter i x).buf = s.buf := by cases i <;> rfl
@[simp] theorem State.setMeter_audio (s : State) (i : MeterId) (x : F32) : (s.setMeter i x).audio = s.audio := by cases i <;> rfl
@[simp] theorem State.setMeter_control (s : State) (i : MeterId) (x : F32) : (s.setMeter i x).control = s.control := by cases i <;> rfl
@[simp] theorem State.setMeter_monitor (s : State) (i : MeterId) (x : F32) : (s.setMeter i x).monitor = s.monitor := by cases i <;> rfl
@[simp] theorem State.setMeter_granted (s : State) (i : MeterId) (x : F32) : (s.setMeter i x).granted = s.granted := by cases i <;> rfl
@[simp] theorem State.setMeter_serial (s : State) (i : MeterId) (x : F32) : (s.setMeter i x).serial = s.serial := by cases i <;> rfl
@[simp] theorem State.setMeter_dispatch (s : State) (i : MeterId) (x : F32) : (s.setMeter i x).dispatch = s.dispatch := by cases i <;> rfl
@[simp] theorem State.setMeter_wires (s : State) (i : MeterId) (x : F32) : (s.setMeter i x).wires = s.wires := by cases i <;> rfl
@[simp] theorem State.setMeter_meter (s : State) (i : MeterId) (x : F32) : (s.setMeter i x).meter i = x := by cases i <;> rfl
@[simp] theorem State.setMeter_port (s : State) (i : MeterId) (x : F32) (p : Port) : (s.setMeter i x).port p = s.port p := by cases p <;> simp [State.port]

/-! ## `State.setSmoother` -/

@[simp] theorem State.setSmoother_cfg (s : State) (i : SmootherId) (x : Smoother) : (s.setSmoother i x).cfg = s.cfg := by
  cases i with
  | mix u => cases u <;> rfl
  | _ => rfl
@[simp] theorem State.setSmoother_sr (s : State) (i : SmootherId) (x : Smoother) : (s.setSmoother i x).sr = s.sr := by
  cases i with
  | mix u => cases u <;> rfl
  | _ => rfl
@[simp] theorem State.setSmoother_maxblk (s : State) (i : SmootherId) (x : Smoother) : (s.setSmoother i x).maxblk = s.maxblk := by
  cases i with
  | mix u => cases u <;> rfl
  | _ => rfl
@[simp] theorem State.setSmoother_holders (s : State) (i : SmootherId) (x : Smoother) : (s.setSmoother i x).holders = s.holders := by
  cases i with
  | mix u => cases u <;> rfl
  | _ => rfl
@[simp] theorem State.setSmoother_status (s : State) (i : SmootherId) (x : Smoother) : (s.setSmoother i x).status = s.status := by
  cases i with
  | mix u => cases u <;> rfl
  | _ => rfl
@[simp] theorem State.setSmoother_bypassPrev (s : State) (i : SmootherId) (x : Smoother) : (s.setSmoother i x).bypassPrev = s.bypassPrev := by
  cases i with
  | mix u => cases u <;> rfl
  | _ => rfl
@[simp] theorem State.setSmoother_family (s : State) (i : SmootherId) (x : Smoother) : (s.setSmoother i x).family = s.family := by
  cases i with
  | mix u => cases u <;> rfl
  | _ => rfl
@[simp] theorem State.setSmoother_meters (s : State) (i : SmootherId) (x : Smoother) : (s.setSmoother i x).meters = s.meters := by
  cases i with
  | mix u => cases u <;> rfl
  | _ => rfl
@[simp] theorem State.setSmoother_buf (s : State) (i : SmootherId) (x : Smoother) : (s.setSmoother i x).buf = s.buf := by
  cases i with
  | mix u => cases u <;> rfl
  | _ => rfl
@[simp] theorem State.setSmoother_audio (s : State) (i : SmootherId) (x : Smoother) : (s.setSmoother i x).audio = s.audio := by
  cases i with
  | mix u => cases u <;> rfl
  | _ => rfl
@[simp] theorem State.setSmoother_control (s : State) (i : SmootherId) (x : Smoother) : (s.setSmoother i x).control = s.control := by
  cases i with
  | mix u => cases u <;> rfl
  | _ => rfl
@[simp] theorem State.setSmoother_monitor (s : State) (i : SmootherId) (x : Smoother) : (s.setSmoother i x).monitor = s.monitor := by
  cases i with
  | mix u => cases u <;> rfl
  | _ => rfl
@[simp] theorem State.setSmoother_granted (s : State) (i : SmootherId) (x : Smoother) : (s.setSmoother i x).granted = s.granted := by
  cases i with
  | mix u => cases u <;> rfl
  | _ => rfl
@[simp] theorem State.setSmoother_serial (s : State) (i : SmootherId) (x : Smoother) : (s.setSmoother i x).serial = s.serial := by
  cases i with
  | mix u => cases u <;> rfl
  | _ => rfl
@[simp] theorem State.setSmoother_dispatch (s : State) (i : SmootherId) (x : Smoother) : (s.setSmoother i x).dispatch = s.dispatch := by
  cases i with
  | mix u => cases u <;> rfl
  | _ => rfl
@[simp] theorem State.setSmoother_wires (s : State) (i : SmootherId) (x : Smoother) : (s.setSmoother i x).wires = s.wires := by
  cases i with
  | mix u => cases u <;> rfl
  | _ => rfl
@[simp] theorem State.setSmoother_smoother (s : State) (i : SmootherId) (x : Smoother) : (s.setSmoother i x).smoother i = x := by
  cases i with
  | mix u => cases u <;> rfl
  | _ => rfl
@[simp] theorem State.setSmoother_port (s : State) (i : SmootherId) (x : Smoother) (p : Port) : (s.setSmoother i x).port p = s.port p := by cases p <;> simp [State.port]

/-! ## `State.setFilter` -/

@[simp] theorem State.setFilter_cfg (s : State) (i : FilterId) (x : Biquad) : (s.setFilter i x).cfg = s.cfg := by cases i <;> rfl
@[simp] theorem State.setFilter_sr (s : State) (i : FilterId) (x : Biquad) : (s.setFilter i x).sr = s.sr := by cases i <;> rfl
@[simp] theorem State.setFilter_maxblk (s : State) (i : FilterId) (x : Biquad) : (s.setFilter i x).maxblk = s.maxblk := by cases i <;> rfl
@[simp] theorem State.setFilter_holders (s : State) (i : FilterId) (x : Biquad) : (s.setFilter i x).holders = s.holders := by cases i <;> rfl
@[simp] theorem State.setFilter_status (s : State) (i : FilterId) (x : Biquad) : (s.setFilter i x).status = s.status := by cases i <;> rfl
@[simp] theorem State.setFilter_bypassPrev (s : State) (i : FilterId) (x : Biquad) : (s.setFilter i x).bypassPrev = s.bypassPrev := by cases i <;> rfl
@[simp] theorem State.setFilter_family (s : State) (i : FilterId) (x : Biquad) : (s.setFilter i x).family = s.family := by cases i <;> rfl
@[simp] theorem State.setFilter_meters (s : State) (i : FilterId) (x : Biquad) : (s.setFilter i x).meters = s.meters := by cases i <;> rfl
@[simp] theorem State.setFilter_buf (s : State) (i : FilterId) (x : Biquad) : (s.setFilter i x).buf = s.buf := by cases i <;> rfl
@[simp] theorem State.setFilter_audio (s : State) (i : FilterId) (x : Biquad) : (s.setFilter i x).audio = s.audio := by cases i <;> rfl
@[simp] theorem State.setFilter_control (s : State) (i : FilterId) (x : Biquad) : (s.setFilter i x).control = s.control := by cases i <;> rfl
@[simp] theorem State.setFilter_monitor (s : State) (i : FilterId) (x : Biquad) : (s.setFilter i x).monitor = s.monitor := by cases i <;> rfl
@[simp] theorem State.setFilter_granted (s : State) (i : FilterId) (x : Biquad) : (s.setFilter i x).granted = s.granted := by cases i <;> rfl
@[simp] theorem State.setFilter_serial (s : State) (i : FilterId) (x : Biquad) : (s.setFilter i x).serial = s.serial := by cases i <;> rfl
@[simp] theorem State.setFilter_dispatch (s : State) (i : FilterId) (x : Biquad) : (s.setFilter i x).dispatch = s.dispatch := by cases i <;> rfl
@[simp] theorem State.setFilter_wires (s : State) (i : FilterId) (x : Biquad) : (s.setFilter i x).wires = s.wires := by cases i <;> rfl
@[simp] theorem State.setFilter_filter (s : State) (i : FilterId) (x : Biquad) : (s.setFilter i x).filter i = x := by cases i <;> rfl
@[simp] theorem State.setFilter_port (s : State) (i : FilterId) (x : Biquad) (p : Port) : (s.setFilter i x).port p = s.port p := by cases p <;> simp [State.port]

/-! ## `State.setDelay` -/

@[simp] theorem State.setDelay_cfg (s : State) (i : DelayId) (x : DelayLine) : (s.setDelay i x).cfg = s.cfg := by cases i <;> rfl
@[simp] theorem State.setDelay_sr (s : State) (i : DelayId) (x : DelayLine) : (s.setDelay i x).sr = s.sr := by cases i <;> rfl
@[simp] theorem State.setDelay_maxblk (s : State) (i : DelayId) (x : DelayLine) : (s.setDelay i x).maxblk = s.maxblk := by cases i <;> rfl
@[simp] theorem State.setDelay_holders (s : State) (i : DelayId) (x : DelayLine) : (s.setDelay i x).holders = s.holders := by cases i <;> rfl
@[simp] theorem State.setDelay_status (s : State) (i : DelayId) (x : DelayLine) : (s.setDelay i x).status = s.status := by cases i <;> rfl
@[simp] theorem State.setDelay_bypassPrev (s : State) (i : DelayId) (x : DelayLine) : (s.setDelay i x).bypassPrev = s.bypassPrev := by cases i <;> rfl
@[simp] theorem State.setDelay_family (s : State) (i : DelayId) (x : DelayLine) : (s.setDelay i x).family = s.family := by cases i <;> rfl
@[simp] theorem State.setDelay_pre (s : State) (i : DelayId) (x : DelayLine) : (s.setDelay i x).pre = s.pre := by cases i <;> rfl
@[simp] theorem State.setDelay_meters (s : State) (i : DelayId) (x : DelayLine) : (s.setDelay i x).meters = s.meters := by cases i <;> rfl
@[simp] theorem State.setDelay_buf (s : State) (i : DelayId) (x : DelayLine) : (s.setDelay i x).buf = s.buf := by cases i <;> rfl
@[simp] theorem State.setDelay_audio (s : State) (i : DelayId) (x : DelayLine) : (s.setDelay i x).audio = s.audio := by cases i <;> rfl
@[simp] theorem State.setDelay_control (s : State) (i : DelayId) (x : DelayLine) : (s.setDelay i x).control = s.control := by cases i <;> rfl
@[simp] theorem State.setDelay_monitor (s : State) (i : DelayId) (x : DelayLine) : (s.setDelay i x).monitor = s.monitor := by cases i <;> rfl
@[simp] theorem State.setDelay_granted (s : State) (i : DelayId) (x : DelayLine) : (s.setDelay i x).granted = s.granted := by cases i <;> rfl
@[simp] theorem State.setDelay_serial (s : State) (i : DelayId) (x : DelayLine) : (s.setDelay i x).serial = s.serial := by cases i <;> rfl
@[simp] theorem State.setDelay_dispatch (s : State) (i : DelayId) (x : DelayLine) : (s.setDelay i x).dispatch = s.dispatch := by cases i <;> rfl
@[simp] theorem State.setDelay_wires (s : State) (i : DelayId) (x : DelayLine) : (s.setDelay i x).wires = s.wires := by cases i <;> rfl
@[simp] theorem State.setDelay_delay (s : State) (i : DelayId) (x : DelayLine) : (s.setDelay i x).delay i = x := by cases i <;> rfl
@[simp] theorem State.setDelay_port (s : State) (i : DelayId) (x : DelayLine) (p : Port) : (s.setDelay i x).port p = s.port p := by cases p <;> simp [State.port]

/-! ## `State.setPort` -/

@[simp] theorem State.setPort_cfg (s : State) (i : Port) (x : PortIO) : (s.setPort i x).cfg = s.cfg := by cases i <;> rfl
@[simp] theorem State.setPort_sr (s : State) (i : Port) (x : PortIO) : (s.setPort i x).sr = s.sr := by cases i <;> rfl
@[simp] theorem State.setPort_maxblk (s : State) (i : Port) (x : PortIO) : (s.setPort i x).maxblk = s.maxblk := by cases i <;> rfl
@[simp] theorem State.setPort_holders (s : State) (i : Port) (x : PortIO) : (s.setPort i x).holders = s.holders := by cases i <;> rfl
@[simp] theorem State.setPort_status (s : State) (i : Port) (x : PortIO) : (s.setPort i x).status = s.status := by cases i <;> rfl
@[simp] theorem State.setPort_bypassPrev (s : State) (i : Port) (x : PortIO) : (s.setPort i x).bypassPrev = s.bypassPrev := by cases i <;> rfl
@[simp] theorem State.setPort_family (s : State) (i : Port) (x : PortIO) : (s.setPort i x).family = s.family := by cases i <;> rfl
@[simp] theorem State.setPort_pre (s : State) (i : Port) (x : PortIO) : (s.setPort i x).pre = s.pre := by cases i <;> rfl
@[simp] theorem State.setPort_units (s : State) (i : Port) (x : PortIO) : (s.setPort i x).units = s.units := by cases i <;> rfl
@[simp] theorem State.setPort_meters (s : State) (i : Port) (x : PortIO) : (s.setPort i x).meters = s.meters := by cases i <;> rfl
@[simp] theorem State.setPort_buf (s : State) (i : Port) (x : PortIO) : (s.setPort i x).buf = s.buf := by cases i <;> rfl
@[simp] theorem State.setPort_granted (s : State) (i : Port) (x : PortIO) : (s.setPort i x).granted = s.granted := by cases i <;> rfl
@[simp] theorem State.setPort_serial (s : State) (i : Port) (x : PortIO) : (s.setPort i x).serial = s.serial := by cases i <;> rfl
@[simp] theorem State.setPort_dispatch (s : State) (i : Port) (x : PortIO) : (s.setPort i x).dispatch = s.dispatch := by cases i <;> rfl
@[simp] theorem State.setPort_wires (s : State) (i : Port) (x : PortIO) : (s.setPort i x).wires = s.wires := by cases i <;> rfl
@[simp] theorem State.setPort_port (s : State) (i : Port) (x : PortIO) : (s.setPort i x).port i = x := by cases i <;> rfl

/-! ## `State.setSticky` -/

@[simp] theorem State.setSticky_cfg (s : State) (e : Err) : (s.setSticky e).cfg = s.cfg := by cases e <;> rfl
@[simp] theorem State.setSticky_sr (s : State) (e : Err) : (s.setSticky e).sr = s.sr := by cases e <;> rfl
@[simp] theorem State.setSticky_maxblk (s : State) (e : Err) : (s.setSticky e).maxblk = s.maxblk := by cases e <;> rfl
@[simp] theorem State.setSticky_holders (s : State) (e : Err) : (s.setSticky e).holders = s.holders := by cases e <;> rfl
@[simp] theorem State.setSticky_bypassPrev (s : State) (e : Err) : (s.setSticky e).bypassPrev = s.bypassPrev := by cases e <;> rfl
@[simp] theorem State.setSticky_family (s : State) (e : Err) : (s.setSticky e).family = s.family := by cases e <;> rfl
@[simp] theorem State.setSticky_pre (s : State) (e : Err) : (s.setSticky e).pre = s.pre := by cases e <;> rfl
@[simp] theorem State.setSticky_units (s : State) (e : Err) : (s.setSticky e).units = s.units := by cases e <;> rfl
@[simp] theorem State.setSticky_meters (s : State) (e : Err) : (s.setSticky e).meters = s.meters := by cases e <;> rfl
@[simp] theorem State.setSticky_buf (s : State) (e : Err) : (s.setSticky e).buf = s.buf := by cases e <;> rfl
@[simp] theorem State.setSticky_audio (s : State) (e : Err) : (s.setSticky e).audio = s.audio := by cases e <;> rfl
@[simp] theorem State.setSticky_control (s : State) (e : Err) : (s.setSticky e).control = s.control := by cases e <;> rfl
@[simp] theorem State.setSticky_monitor (s : State) (e : Err) : (s.setSticky e).monitor = s.monitor := by cases e <;> rfl
@[simp] theorem State.setSticky_granted (s : State) (e : Err) : (s.setSticky e).granted = s.granted := by cases e <;> rfl
@[simp] theorem State.setSticky_serial (s : State) (e : Err) : (s.setSticky e).serial = s.serial := by cases e <;> rfl
@[simp] theorem State.setSticky_dispatch (s : State) (e : Err) : (s.setSticky e).dispatch = s.dispatch := by cases e <;> rfl
@[simp] theorem State.setSticky_wires (s : State) (e : Err) : (s.setSticky e).wires = s.wires := by cases e <;> rfl
@[simp] theorem State.setSticky_prepared (s : State) (e : Err) : (s.setSticky e).status.prepared = s.status.prepared := by cases e <;> rfl
@[simp] theorem State.setSticky_port (s : State) (e : Err) (p : Port) : (s.setSticky e).port p = s.port p := by cases e <;> rfl

/-! ## `State.send` -/

@[simp] theorem State.send_cfg (s : State) (r : RspWord) : (s.send r).cfg = s.cfg := State.setPort_cfg _ _ _
@[simp] theorem State.send_sr (s : State) (r : RspWord) : (s.send r).sr = s.sr := State.setPort_sr _ _ _
@[simp] theorem State.send_maxblk (s : State) (r : RspWord) : (s.send r).maxblk = s.maxblk := State.setPort_maxblk _ _ _
@[simp] theorem State.send_holders (s : State) (r : RspWord) : (s.send r).holders = s.holders := State.setPort_holders _ _ _
@[simp] theorem State.send_status (s : State) (r : RspWord) : (s.send r).status = s.status := State.setPort_status _ _ _
@[simp] theorem State.send_bypassPrev (s : State) (r : RspWord) : (s.send r).bypassPrev = s.bypassPrev := State.setPort_bypassPrev _ _ _
@[simp] theorem State.send_family (s : State) (r : RspWord) : (s.send r).family = s.family := State.setPort_family _ _ _
@[simp] theorem State.send_pre (s : State) (r : RspWord) : (s.send r).pre = s.pre := State.setPort_pre _ _ _
@[simp] theorem State.send_units (s : State) (r : RspWord) : (s.send r).units = s.units := State.setPort_units _ _ _
@[simp] theorem State.send_meters (s : State) (r : RspWord) : (s.send r).meters = s.meters := State.setPort_meters _ _ _
@[simp] theorem State.send_buf (s : State) (r : RspWord) : (s.send r).buf = s.buf := State.setPort_buf _ _ _
@[simp] theorem State.send_granted (s : State) (r : RspWord) : (s.send r).granted = s.granted := State.setPort_granted _ _ _
@[simp] theorem State.send_serial (s : State) (r : RspWord) : (s.send r).serial = s.serial := State.setPort_serial _ _ _
@[simp] theorem State.send_dispatch (s : State) (r : RspWord) : (s.send r).dispatch = s.dispatch := State.setPort_dispatch _ _ _
@[simp] theorem State.send_wires (s : State) (r : RspWord) : (s.send r).wires = s.wires := State.setPort_wires _ _ _

/-! ## `State.respond` -/

@[simp] theorem State.respond_cfg (s : State) (v : Word) : (s.respond v).cfg = s.cfg := State.setPort_cfg _ _ _
@[simp] theorem State.respond_sr (s : State) (v : Word) : (s.respond v).sr = s.sr := State.setPort_sr _ _ _
@[simp] theorem State.respond_maxblk (s : State) (v : Word) : (s.respond v).maxblk = s.maxblk := State.setPort_maxblk _ _ _
@[simp] theorem State.respond_holders (s : State) (v : Word) : (s.respond v).holders = s.holders := State.setPort_holders _ _ _
@[simp] theorem State.respond_status (s : State) (v : Word) : (s.respond v).status = s.status := State.setPort_status _ _ _
@[simp] theorem State.respond_bypassPrev (s : State) (v : Word) : (s.respond v).bypassPrev = s.bypassPrev := State.setPort_bypassPrev _ _ _
@[simp] theorem State.respond_family (s : State) (v : Word) : (s.respond v).family = s.family := State.setPort_family _ _ _
@[simp] theorem State.respond_pre (s : State) (v : Word) : (s.respond v).pre = s.pre := State.setPort_pre _ _ _
@[simp] theorem State.respond_units (s : State) (v : Word) : (s.respond v).units = s.units := State.setPort_units _ _ _
@[simp] theorem State.respond_meters (s : State) (v : Word) : (s.respond v).meters = s.meters := State.setPort_meters _ _ _
@[simp] theorem State.respond_buf (s : State) (v : Word) : (s.respond v).buf = s.buf := State.setPort_buf _ _ _
@[simp] theorem State.respond_granted (s : State) (v : Word) : (s.respond v).granted = s.granted := State.setPort_granted _ _ _
@[simp] theorem State.respond_serial (s : State) (v : Word) : (s.respond v).serial = s.serial := State.setPort_serial _ _ _
@[simp] theorem State.respond_dispatch (s : State) (v : Word) : (s.respond v).dispatch = s.dispatch := State.setPort_dispatch _ _ _
@[simp] theorem State.respond_wires (s : State) (v : Word) : (s.respond v).wires = s.wires := State.setPort_wires _ _ _

/-- A response goes to the port that issued the command. -/
theorem State.send_port (s : State) (r : RspWord) :
    (s.send r).port s.granted = { s.port s.granted with responses := (s.port s.granted).responses ++ [r] } :=
  State.setPort_port s s.granted _

/-- A response goes to no other port. -/
theorem State.send_port_ne (s : State) (r : RspWord) {q : Port} (h : q ≠ s.granted) : (s.send r).port q = s.port q := by
  unfold State.send
  generalize s.granted = p at *
  cases p <;> cases q <;> first | rfl | exact absurd rfl h

/-! ## `raise` -/

@[simp] theorem raise_cfg (e : Err) (s : State) : (raise e s).cfg = s.cfg := by simp [raise]
@[simp] theorem raise_sr (e : Err) (s : State) : (raise e s).sr = s.sr := by simp [raise]
@[simp] theorem raise_maxblk (e : Err) (s : State) : (raise e s).maxblk = s.maxblk := by simp [raise]
@[simp] theorem raise_holders (e : Err) (s : State) : (raise e s).holders = s.holders := by simp [raise]
@[simp] theorem raise_bypassPrev (e : Err) (s : State) : (raise e s).bypassPrev = s.bypassPrev := by simp [raise]
@[simp] theorem raise_family (e : Err) (s : State) : (raise e s).family = s.family := by simp [raise]
@[simp] theorem raise_pre (e : Err) (s : State) : (raise e s).pre = s.pre := by simp [raise]
@[simp] theorem raise_units (e : Err) (s : State) : (raise e s).units = s.units := by simp [raise]
@[simp] theorem raise_meters (e : Err) (s : State) : (raise e s).meters = s.meters := by simp [raise]
@[simp] theorem raise_buf (e : Err) (s : State) : (raise e s).buf = s.buf := by simp [raise]
@[simp] theorem raise_granted (e : Err) (s : State) : (raise e s).granted = s.granted := by simp [raise]
@[simp] theorem raise_serial (e : Err) (s : State) : (raise e s).serial = s.serial := by simp [raise]
@[simp] theorem raise_dispatch (e : Err) (s : State) : (raise e s).dispatch = s.dispatch := by simp [raise]
@[simp] theorem raise_wires (e : Err) (s : State) : (raise e s).wires = s.wires := by simp [raise]
@[simp] theorem raise_prepared (e : Err) (s : State) : (raise e s).status.prepared = s.status.prepared := by simp [raise]

/-! ## `State.setWires` -/

@[simp] theorem State.setWires_cfg (s : State) (r : List F32) : (s.setWires r).cfg = s.cfg := rfl
@[simp] theorem State.setWires_sr (s : State) (r : List F32) : (s.setWires r).sr = s.sr := rfl
@[simp] theorem State.setWires_maxblk (s : State) (r : List F32) : (s.setWires r).maxblk = s.maxblk := rfl
@[simp] theorem State.setWires_holders (s : State) (r : List F32) : (s.setWires r).holders = s.holders := rfl
@[simp] theorem State.setWires_status (s : State) (r : List F32) : (s.setWires r).status = s.status := rfl
@[simp] theorem State.setWires_bypassPrev (s : State) (r : List F32) : (s.setWires r).bypassPrev = s.bypassPrev := rfl
@[simp] theorem State.setWires_family (s : State) (r : List F32) : (s.setWires r).family = s.family := rfl
@[simp] theorem State.setWires_pre (s : State) (r : List F32) : (s.setWires r).pre = s.pre := rfl
@[simp] theorem State.setWires_units (s : State) (r : List F32) : (s.setWires r).units = s.units := rfl
@[simp] theorem State.setWires_meters (s : State) (r : List F32) : (s.setWires r).meters = s.meters := rfl
@[simp] theorem State.setWires_buf (s : State) (r : List F32) : (s.setWires r).buf = s.buf := rfl
@[simp] theorem State.setWires_audio (s : State) (r : List F32) : (s.setWires r).audio = s.audio := rfl
@[simp] theorem State.setWires_control (s : State) (r : List F32) : (s.setWires r).control = s.control := rfl
@[simp] theorem State.setWires_monitor (s : State) (r : List F32) : (s.setWires r).monitor = s.monitor := rfl
@[simp] theorem State.setWires_granted (s : State) (r : List F32) : (s.setWires r).granted = s.granted := rfl
@[simp] theorem State.setWires_serial (s : State) (r : List F32) : (s.setWires r).serial = s.serial := rfl
@[simp] theorem State.setWires_dispatch (s : State) (r : List F32) : (s.setWires r).dispatch = s.dispatch := rfl
@[simp] theorem State.setWires_wires (s : State) (r : List F32) : (s.setWires r).wires = r := rfl
@[simp] theorem State.setWires_port (s : State) (r : List F32) (p : Port) : (s.setWires r).port p = s.port p := by cases p <;> rfl

end Sys2Proof.Machine
end

