-- ==== Sys2Proof/Laws/Step.lean ====
section
/-! SUPPORT. What serving can do, once: the port check, the choice of a port, the taking of a command, the running of a
command word or a sequencer code, and one step. Later proofs cite these in place of unfolding `step`. -/

namespace Sys2Proof.Machine

open Sys2Proof

/-- The port check: the command is performed, or E_PORT is raised (30_encoding.md R107). -/
theorem onPort_cases (op : Opcode) (s : State) (o : Out) :
    (mayIssue op s.granted = true ∧ onPort op s o = o) ∨
    (mayIssue op s.granted = false ∧ onPort op s o = .next (raise .port s)) := by
  cases h : mayIssue op s.granted
  · exact .inr ⟨rfl, by simp [onPort, h]⟩
  · exact .inl ⟨rfl, by simp [onPort, h]⟩

theorem onPort_allowed {op : Opcode} {s : State} (h : mayIssue op s.granted = true) (o : Out) : onPort op s o = o := by
  simp [onPort, h]

theorem onPort_refused {op : Opcode} {s : State} (h : mayIssue op s.granted = false) (o : Out) :
    onPort op s o = .next (raise .port s) := by
  simp [onPort, h]

/-- A waiting port is one with a command. -/
theorem mem_waitingPorts {s : State} {p : Port} : p ∈ waitingPorts s ↔ (s.port p).commands ≠ [] := by
  cases p <;> simp [waitingPorts]

/-- The port the arbiter chooses has a command waiting, whatever the free arbiter answers (20_memory.md R78). -/
theorem choosePort_waiting {s : State} {p : Port} (h : choosePort s = some p) : (s.port p).commands ≠ [] := by
  rw [← mem_waitingPorts]
  unfold choosePort at h
  split at h
  · cases h
  · next q hq => cases h; simp [hq]
  · exact List.mem_of_getElem? h

/-- Some port is served while any has a command waiting. -/
theorem choosePort_none {s : State} : choosePort s = none ↔ ∀ p, (s.port p).commands = [] := by
  have e : (∀ p, (s.port p).commands = []) ↔ waitingPorts s = [] := by
    rw [List.eq_nil_iff_forall_not_mem]
    simp [mem_waitingPorts]
  rw [e]
  unfold choosePort
  split
  · simp_all
  · simp_all
  · next h0 _ =>
    have : 0 < (waitingPorts s).length := List.length_pos_iff.mpr h0
    simp [Nat.mod_lt _ this, show waitingPorts s ≠ [] from h0]

/-- What taking a command does: the oldest word of its port leaves the queue, the port is granted, the count rises. -/
theorem takeFrom_some {s s1 : State} {p : Port} {w : CmdWord} (h : takeFrom s p = some (w, s1)) :
    ∃ ws, (s.port p).commands = w :: ws ∧
      s1 = { s.setPort p { s.port p with commands := ws } with granted := p, serial := s.serial + 1 } := by
  unfold takeFrom at h
  split at h
  · cases h
  · next w' ws hw =>
    simp only [Option.some.injEq, Prod.mk.injEq] at h
    obtain ⟨rfl, rfl⟩ := h
    exact ⟨ws, hw, rfl⟩

/-- The next command comes from the head of some port's queue (20_memory.md R78). -/
theorem nextCommand_some {s s1 : State} {w : CmdWord} (h : nextCommand s = some (w, s1)) :
    ∃ p ws, choosePort s = some p ∧ (s.port p).commands = w :: ws ∧
      s1 = { s.setPort p { s.port p with commands := ws } with granted := p, serial := s.serial + 1 } := by
  unfold nextCommand at h
  split at h
  · cases h
  · next p hp =>
    obtain ⟨ws, h1, h2⟩ := takeFrom_some h
    exact ⟨p, ws, hp, h1, h2⟩

/-- There is no next command exactly when no port has one waiting. -/
theorem nextCommand_none {s : State} : nextCommand s = none ↔ ∀ p, (s.port p).commands = [] := by
  rw [← choosePort_none]
  unfold nextCommand
  split
  · simp_all
  · next p hp =>
    have h := choosePort_waiting hp
    unfold takeFrom
    split
    · contradiction
    · simp [hp]

/-- What running a command word can do (30_encoding.md R107, checks 1 to 3). -/
theorem runCommand_cases (w : CmdWord) (s : State) :
    (decodeCmd w = .reservedOp ∧ runCommand w s = .next (raise .illegal s)) ∨
    (∃ op, decodeCmd w = .badField op ∧ runCommand w s = onPort op s (.next (raise .illegal s))) ∨
    (∃ op i, decodeCmd w = .instr op i ∧ runCommand w s = exec i s) := by
  unfold runCommand
  split
  · exact .inl ⟨by assumption, rfl⟩
  · exact .inr (.inl ⟨_, by assumption, rfl⟩)
  · exact .inr (.inr ⟨_, _, by assumption, rfl⟩)

/-- What running a code of the sequencer's slot can do (log 4). -/
theorem runCode_cases (c : SeqWord) (s : State) :
    (decodeSeq c = none ∧ runCode c s = .fault .reservedCode) ∨ (∃ i, decodeSeq c = some i ∧ runCode c s = exec i s) := by
  unfold runCode
  split
  · exact .inl ⟨by assumption, rfl⟩
  · exact .inr ⟨_, by assumption, rfl⟩

/-- What a step that answers a next state did: a code of the slot, nothing, or the command of a port. -/
theorem step_cases {s t : State} (h : step s = .next t) :
    (∃ c cs i, s.dispatch = c :: cs ∧ decodeSeq c = some i ∧ exec i { s with dispatch := cs } = .next t) ∨
    (s.dispatch = [] ∧ (∀ p, (s.port p).commands = []) ∧ t = s) ∨
    (∃ p w ws, s.dispatch = [] ∧ (s.port p).commands = w :: ws ∧
      runCommand w { s.setPort p { s.port p with commands := ws } with granted := p, serial := s.serial + 1 } =
        .next t) := by
  unfold step at h
  split at h
  · next c cs hc =>
    rcases runCode_cases c { s with dispatch := cs } with ⟨_, e⟩ | ⟨i, hi, e⟩
    · rw [e] at h; cases h
    · exact .inl ⟨c, cs, i, hc, hi, e ▸ h⟩
  · next hd =>
    split at h
    · next hn => cases h; exact .inr (.inl ⟨hd, nextCommand_none.mp hn, rfl⟩)
    · next w s1 hn =>
      obtain ⟨p, ws, _, h1, rfl⟩ := nextCommand_some hn
      exact .inr (.inr ⟨p, w, ws, hd, h1, h⟩)

end Sys2Proof.Machine
end

