-- ==== Sys2Proof/WellFormed.lean ====
section
/-! DEFINITION. Well-formedness of an instruction as syntax: its selector, index, length and operand ranges (30_encoding.md
R104; 20_memory.md R71; the operand lines of the rules). A command word that fails it still decodes and is refused by
the block with a code (R107); the operand ranges of the internal operations are their rules' preconditions. -/

namespace Sys2Proof

open Machine

/-- A `sel` of a configuration register (R104). -/
def selCfgOk (sel : BitVec 8) : Bool := decide (sel.toNat ≤ 2)
/-- A `sel` of one of the twenty holders (R104, 10_state.md R33). -/
def selHolderOk (sel : BitVec 8) : Bool := decide (sel.toNat ≤ 4) || (unitOfTag sel).isSome
/-- A `sel` of a meter (R104). -/
def selMeterOk (sel : BitVec 8) : Bool := decide (sel.toNat ≤ 3)
/-- A `sel` of a buffer channel (R104). -/
def selChannelOk (sel : BitVec 8) : Bool := decide (sel.toNat ≤ 1)
/-- A frame index of the sample buffer (R71). -/
def frameOk (idx : BitVec 16) : Bool := decide (idx.toNat < Config.maxblkMax)
/-- A block length (10_state.md R32). -/
def lengthOk (n : Word) : Bool := decide (n.toNat ≤ Config.maxblkMax)
/-- A positive finite number, as a quality factor, a rate or a gain must be (42_biquad.md R172, R177). -/
def positiveOk (x : F32) : Bool := isFin x && fLt 0 x
/-- A non-negative finite number, as a duration or a lag must be (41_smoother.md R161, 43_delay_line.md R194). -/
def nonNegOk (x : F32) : Bool := isFin x && fLe 0 x
/-- A value in [0, 1], as a mix must be (45_units_cathode.md R231). -/
def unitRangeOk (x : F32) : Bool := fLe 0 x && fLe x 0x3F800000#32

/-- The instruction is well formed. -/
def wellFormed : Instr → Bool
  | .nop => true
  | .setcfg sel _ => selCfgOk sel
  | .getcfg sel => selCfgOk sel
  | .prepare => true
  | .reset => true
  | .process n => lengthOk n
  | .wrbuf sel idx _ => selChannelOk sel && frameOk idx
  | .rdbuf sel idx => selChannelOk sel && frameOk idx
  | .getstatus => true
  | .setparam sel _ => selHolderOk sel
  | .getparam sel => selHolderOk sel
  | .getmeter sel => selMeterOk sel
  | .unitEmber n => lengthOk n
  | .unitVelvet n => lengthOk n
  | .unitDrift n => lengthOk n
  | .unitEcho n => lengthOk n
  | .unitHaze n => lengthOk n
  | .unitFracture n => lengthOk n
  | .unitPrism n => lengthOk n
  | .unitPhase n => lengthOk n
  | .unitCascade n => lengthOk n
  | .unitGlisten n => lengthOk n
  | .unitScorch n => lengthOk n
  | .unitSnarl n => lengthOk n
  | .unitShred n => lengthOk n
  | .unitGrind n => lengthOk n
  | .unitRust n => lengthOk n
  | .bqSetcLp _ _ q sr => positiveOk q && positiveOk sr
  | .bqSetcHp _ _ q sr => positiveOk q && positiveOk sr
  | .bqSetcBp _ _ q sr => positiveOk q && positiveOk sr
  | .bqSetcLs _ _ q sr g => positiveOk q && positiveOk sr && positiveOk g
  | .svReset _ sr t => positiveOk sr && nonNegOk t
  | .svSnap _ => true
  | .svSettarget _ t => isFin t
  | .svNext _ => true
  | .svCurrent _ => true
  | .bqProcess _ _ => true
  | .bqReset _ => true
  | .bqSetc _ k _ q sr g => positiveOk q && positiveOk sr && (k != .ls || positiveOk g)
  | .dlSize _ tmax _ sr => nonNegOk tmax && positiveOk sr
  | .dlClear _ => true
  | .dlWrite _ _ _ => true
  | .dlReadi _ _ => true
  | .dlReadf _ _ t => nonNegOk t
  | .dlAdvance _ => true
  | .hardclip _ => true
  | .xfmrSat _ => true
  | .softclip _ => true
  | .emberShape _ => true
  | .quant _ _ => true
  | .lfoAdvance p _ sr => nonNegOk p && fLt p 0x3F800000#32 && positiveOk sr
  | .lfoSine _ => true
  | .lfoTri p => nonNegOk p && fLt p 0x3F800000#32
  | .envCoef t sr => positiveOk t && positiveOk sr
  | .envStep _ lvl _ _ => nonNegOk lvl
  | .gate env => nonNegOk env
  | .meterUpdate _ pk => nonNegOk pk
  | .db2lin o => unitRangeOk o
  | .rectify _ => true
  | .xfade _ _ _ => true
  | .unitProcess _ n => lengthOk n
  | .unitSetmix _ v => unitRangeOk v
  | .unitPrepare => true
  | .unitReset => true
  | .preamp n => lengthOk n
  | .preampSetshelf _ => true
  | .applyParams => true
  | .resetState => true
  | .size => true

end Sys2Proof
end

