-- ==== Sys2Proof/Tests/Slice0.lean ====
section
/-! SUPPORT. Our own tests. Expected values come from spec/ (95_test_vectors.md where a section is named) or are worked out
by hand from the rule named; then one witness for the hypotheses of each obligation that has some. -/

namespace Sys2Proof.Tests

set_option Elab.async false

open Sys2Proof Sys2Proof.Machine Sys2Proof.Safety

/-! ## Small states and readings -/

/-- The result wires of an instruction executed by name on the reset state. -/
def wires (i : Instr) : List F32 :=
  match exec i State.reset with
  | .next t => t.wires
  | _ => []

/-- A reading of the next state, if there is one. -/
def readNext {α : Type} (f : State → α) : Out → Option α
  | .next t => some (f t)
  | _ => none

/-- A command executed on a port: the last response sent there. -/
def answer (p : Port) (w : CmdWord) (s : State) : Option RspWord :=
  match runCommand w { s with granted := p } with
  | .next t => (t.port p).responses.getLast?
  | _ => none

/-- A smoother with the given registers. -/
def smooth (c t : F32) (k : Nat) (inc : F32) (n : Nat) : Smoother :=
  { current := c, target := t, stepsRemaining := k, increment := inc, numSteps := n }

/-- The delay memory of 95_test_vectors.md 2.3: capacity 8 after eleven writes of 1.0 to 11.0. -/
def line8 : DelayLine :=
  { bufL := [(0, 0x41100000#32), (1, 0x41200000#32), (2, 0x41300000#32), (3, 0x40800000#32), (4, 0x40A00000#32),
             (5, 0x40C00000#32), (6, 0x40E00000#32), (7, 0x41000000#32)]
    bufR := [(0, 0x41100000#32)], writePos := 3, cap := 8 }

/-- The reset state with that memory as Cascade's. -/
def lineState : State := State.reset.setDelay .cascade line8

/-- One frame in the buffer: `l` left, `r` right. -/
def frame1 (l r : F32) : SampleBuffer := { left := [(0, l)], right := [(0, r)] }

/-- The reset state with one frame, and one unit's mix idle at `m`. -/
def unitState (u : UnitId) (m l r : F32) : State :=
  State.setSmoother { State.reset with buf := frame1 l r } (.mix u) (smooth m m 0 0 4)

/-- The frame at index 0 after an instruction. -/
def frameAfter (i : Instr) (s : State) : Option (Option Word × Option Word) :=
  readNext (fun t => (t.buf.get? .left 0, t.buf.get? .right 0)) (exec i s)

/-! ## Well-formedness: each check refuses an ill-formed term -/

theorem test_wf_sel_cfg : wellFormed (.setcfg 3 0) = false ∧ wellFormed (.getcfg 3) = false ∧
    wellFormed (.setcfg 2 0) = true := by decide
theorem test_wf_sel_holder : wellFormed (.setparam 0x15 0) = false ∧ wellFormed (.getparam 5) = false ∧
    wellFormed (.setparam 0x34 0) = true := by decide
theorem test_wf_sel_meter : wellFormed (.getmeter 4) = false ∧ wellFormed (.getmeter 3) = true := by decide
theorem test_wf_channel_index : wellFormed (.wrbuf 2 0 0) = false ∧ wellFormed (.wrbuf 0 8192 0) = false ∧
    wellFormed (.rdbuf 5 0) = false ∧ wellFormed (.rdbuf 1 8192) = false ∧ wellFormed (.rdbuf 1 8191) = true := by decide
theorem test_wf_length_process : wellFormed (.process 8193) = false ∧ wellFormed (.process 8192) = true := by decide
theorem test_wf_length_units : ∀ u ∈ allUnits, wellFormed (unitInstr u 8193) = false ∧
    wellFormed (.unitProcess u 8193) = false := by decide
theorem test_wf_length_preamp : wellFormed (.preamp 8193) = false ∧ wellFormed (.preamp 8192) = true := by decide
theorem test_wf_setc_q : wellFormed (.bqSetcLp .dcL k1 0 k1) = false ∧ wellFormed (.bqSetcHp .dcL k1 kn1 k1) = false ∧
    wellFormed (.bqSetcBp .dcL k1 k1 0) = false ∧ wellFormed (.bqSetc .dcL .lp k1 k1 plusInf 0) = false := by decide
theorem test_wf_setc_gain : wellFormed (.bqSetcLs .dcL k1 k1 k1 0) = false ∧
    wellFormed (.bqSetc .dcL .ls k1 k1 k1 0) = false ∧ wellFormed (.bqSetc .dcL .lp k1 k1 k1 0) = true := by decide
theorem test_wf_smoother : wellFormed (.svReset .drive 0 k1) = false ∧ wellFormed (.svReset .drive k1 kn1) = false ∧
    wellFormed (.svSettarget .drive plusInf) = false := by decide
theorem test_wf_delay : wellFormed (.dlSize .echo kn1 0 k1) = false ∧ wellFormed (.dlSize .echo k1 0 0) = false ∧
    wellFormed (.dlReadf .echo .left kn1) = false := by decide
theorem test_wf_lfo : wellFormed (.lfoAdvance k1 k1 k1) = false ∧ wellFormed (.lfoAdvance 0 k1 0) = false ∧
    wellFormed (.lfoTri k1) = false := by decide
theorem test_wf_envelope : wellFormed (.envCoef 0 k1) = false ∧ wellFormed (.envStep 0 kn1 0 0) = false ∧
    wellFormed (.gate kn1) = false := by decide
theorem test_wf_meter_gain_mix : wellFormed (.meterUpdate .inL kn1) = false ∧ wellFormed (.db2lin k2) = false ∧
    wellFormed (.unitSetmix .ember k2) = false := by decide

/-! ## Decoding: a word for every encoded constructor (30_encoding.md R100, R103, R105, R106; 95_test_vectors.md 2.10)

Command words: op in bits 63:56, sel 55:48, idx 47:32, data 31:0. -/

theorem test_decode_nop : decodeTableWord 64 0x0000000000000000 = some .nop := by decide
theorem test_decode_setcfg : decodeTableWord 64 0x0101000000000004 = some (.setcfg 1 4) := by decide
theorem test_decode_getcfg : decodeTableWord 64 0x0201000000000000 = some (.getcfg 1) := by decide
theorem test_decode_prepare : decodeTableWord 64 0x0300000000000000 = some .prepare := by decide
theorem test_decode_reset : decodeTableWord 64 0x0400000000000000 = some .reset := by decide
theorem test_decode_process : decodeTableWord 64 0x0500000000000002 = some (.process 2) := by decide
theorem test_decode_wrbuf : decodeTableWord 64 0x0601000140400000 = some (.wrbuf 1 1 0x40400000) := by decide
theorem test_decode_rdbuf : decodeTableWord 64 0x0701000300000000 = some (.rdbuf 1 3) := by decide
theorem test_decode_getstatus : decodeTableWord 64 0x0800000000000000 = some .getstatus := by decide
theorem test_decode_setparam : decodeTableWord 64 0x103400003F800000 = some (.setparam 0x34 0x3F800000) := by decide
theorem test_decode_getparam : decodeTableWord 64 0x1100000000000000 = some (.getparam 0) := by decide
theorem test_decode_getmeter : decodeTableWord 64 0x2002000000000000 = some (.getmeter 2) := by decide
theorem test_decode_bits : decodeTableWord 64
    0b0000011000000001000000000000000101000000010000000000000000000000 = some (.wrbuf 1 1 0x40400000) := by decide
theorem test_decode_refused : [0x0300000000000001, 0x0500000100000002, 0x0900000000000000, 0x1200000000000000,
    0x2100000000000000, 0xFF00000000000000].map (decodeTableWord 64) = List.replicate 6 none := by decide
theorem test_decode_ember : decodeTableWord 8 0b00010000 = some (.unitEmber 0) := by decide
theorem test_decode_velvet : decodeTableWord 8 0b00010001 = some (.unitVelvet 0) := by decide
theorem test_decode_drift : decodeTableWord 8 0b00010010 = some (.unitDrift 0) := by decide
theorem test_decode_echo : decodeTableWord 8 0b00010011 = some (.unitEcho 0) := by decide
theorem test_decode_haze : decodeTableWord 8 0b00010100 = some (.unitHaze 0) := by decide
theorem test_decode_fracture : decodeTableWord 8 0b00100000 = some (.unitFracture 0) := by decide
theorem test_decode_prism : decodeTableWord 8 0b00100001 = some (.unitPrism 0) := by decide
theorem test_decode_phase : decodeTableWord 8 0b00100010 = some (.unitPhase 0) := by decide
theorem test_decode_cascade : decodeTableWord 8 0b00100011 = some (.unitCascade 0) := by decide
theorem test_decode_glisten : decodeTableWord 8 0b00100100 = some (.unitGlisten 0) := by decide
theorem test_decode_scorch : decodeTableWord 8 0b00110000 = some (.unitScorch 0) := by decide
theorem test_decode_snarl : decodeTableWord 8 0b00110001 = some (.unitSnarl 0) := by decide
theorem test_decode_shred : decodeTableWord 8 0b00110010 = some (.unitShred 0) := by decide
theorem test_decode_grind : decodeTableWord 8 0b00110011 = some (.unitGrind 0) := by decide
theorem test_decode_rust : decodeTableWord 8 0b00110100 = some (.unitRust 0) := by decide
theorem test_decode_no_unit : [0x05, 0x0F, 0x15, 0x1F, 0x25, 0x35, 0xFF].map (decodeTableWord 8) =
    List.replicate 7 none := by decide
theorem test_decode_lp : decodeTableWord 8 0b00 = some (.bqSetcLp .shelfL 0 0 0) := by decide
theorem test_decode_hp : decodeTableWord 8 0b01 = some (.bqSetcHp .shelfL 0 0 0) := by decide
theorem test_decode_bp : decodeTableWord 8 0b10 = some (.bqSetcBp .shelfL 0 0 0) := by decide
theorem test_decode_ls : decodeTableWord 8 0b11 = some (.bqSetcLs .shelfL 0 0 0 0) := by decide
theorem test_encode_wrbuf : encode (.wrbuf 1 8191 0x40400000) = some (.cmd 0x06011FFF40400000#64) := by decide
theorem test_unit_operand : decode (.seq (mkUnitWord 0x21#8 5)) = some (.unitPrism 5) := by decide

/-! ## Literals (00_scope.md R7): each decimal rounded to binary32 -/

/-- The decimal `n / d` rounded. -/
def dec (n d : Nat) : F32 := fRound false (n * 2 ^ 149) d

theorem test_literals_whole : [k1, k2, k3, k4, k7, k8, k10, k12, k15, k16, k18, k20, k200, k300, k500, k800, k1200, k2000,
    k3000, k4000] = [1, 2, 3, 4, 7, 8, 10, 12, 15, 16, 18, 20, 200, 300, 500, 800, 1200, 2000, 3000, 4000].map fOfNat := by
  decide +kernel
theorem test_literals_negative : [kn1, kn2, kn12] = [1, 2, 12].map fun n => fOfInt (-n) := by decide +kernel
theorem test_literals_tenths : [k0_5, k0_7, k0_9, k1_1, k0_8, k1_2, k0_3, k0_2, k0_6, k0_4] =
    [5, 7, 9, 11, 8, 12, 3, 2, 6, 4].map (dec · 10) := by decide +kernel
theorem test_literals_hundredths : [k0_49, k0_05, k0_35, k0_15, k0_45, k0_25, k0_08, k0_04] =
    [49, 5, 35, 15, 45, 25, 8, 4].map (dec · 100) := by decide +kernel
theorem test_literals_thousandths : [k0_015, k0_012, k0_008, k0_037, k0_053, k0_125, k0_375, k0_023, k0_047, k0_027, k0_001,
    mixSilence] = [15, 12, 8, 37, 53, 125, 375, 23, 47, 27, 1, 1].map (dec · 1000) := by decide +kernel
theorem test_f32_largest : fOfNat 0xFFFFFF = 0x4B7FFFFF#32 ∧ fOfInt (-0xFFFFFF) = 0xCB7FFFFF#32 := by decide +kernel
theorem test_literals_config : [Config.fsMin, Config.fsMax, Config.fsDefault] = [8000, 192000, 44100].map fOfNat ∧
    [Config.qShelf, Config.qDc, Config.qFixed] = List.replicate 3 (dec 70710678 100000000) ∧
    twoPi = dec 6283185307179586 1000000000000000 := by decide +kernel

/-! ## binary32 (00_scope.md R7, R9, R11), by hand from IEEE 754 -/

theorem test_round_ties_even : fAdd 0x4B800000#32 k1 = 0x4B800000#32 ∧ fAdd 0x4B800001#32 k1 = 0x4B800002#32 := by
  decide +kernel
theorem test_flush_subnormal : fMul 0x00800000#32 k0_5 = 0 ∧ fMul 0x80800000#32 k0_5 = 0x80000000#32 ∧
    fAdd 0x00000001#32 0 = 0 := by decide +kernel
theorem test_overflow : fAdd 0x7F7FFFFF#32 0x7F7FFFFF#32 = plusInf ∧ fDiv k1 0 = plusInf := by decide +kernel
theorem test_signed_zero : fAdd 0x80000000#32 0 = 0 ∧ fSub k1 k1 = 0 ∧ fMul kn1 0 = 0x80000000#32 := by decide +kernel
theorem test_sqrt : fSqrt k4 = k2 ∧ fSqrt k2 = 0x3FB504F3#32 := by decide +kernel
theorem test_floor_ceil : floorInt 0xC0200000#32 = -3 ∧ floorNat 0x40200000#32 = 2 ∧ ceilNat 0x40200000#32 = 3 := by
  decide +kernel
theorem test_nan_compare : fLt 0x7FC00000#32 k1 = false ∧ fLe k1 0x7FC00000#32 = false ∧
    fEq 0x7FC00000#32 0x7FC00000#32 = false ∧ fEq 0 0x80000000#32 = true := by decide +kernel

/-! ## Commands and refusals (95_test_vectors.md P5) -/

theorem test_nop_answers : answer .monitor 0x0000000000000000#64 State.reset = some 0 := by decide +kernel
theorem test_nop_data : answer .audio 0x0000000000000001#64 State.reset = some 0x0100000000000000#64 := by decide +kernel
theorem test_process_unprepared : answer .audio 0x0500000000000001#64 State.reset = some 0x0300000000000000#64 := by
  decide +kernel
theorem test_process_length : answer .audio 0x0500000000000005#64
    { State.reset with maxblk := 4, status := { State.reset.status with prepared := true } } =
      some 0x0400000000000000#64 := by decide +kernel
theorem test_reset_unprepared : answer .audio 0x0400000000000000#64 State.reset = some 0x0300000000000000#64 := by
  decide +kernel
theorem test_port_before_field : answer .control 0x0500000100000001#64 State.reset = some 0x0600000000000000#64 := by
  decide +kernel
theorem test_setparam_port : answer .audio 0x100000003F800000#64 State.reset = some 0x0600000000000000#64 := by
  decide +kernel
theorem test_getparam_port : answer .monitor 0x1100000000000000#64 State.reset = some 0x0600000000000000#64 := by
  decide +kernel
theorem test_getmeter_port : answer .control 0x2000000000000000#64 State.reset = some 0x0600000000000000#64 := by
  decide +kernel
theorem test_reserved_any_port : answer .monitor 0xFF00000000000000#64 State.reset = some 0x0100000000000000#64 ∧
    answer .audio 0x0900000000000000#64 State.reset = some 0x0100000000000000#64 := by decide +kernel
theorem test_prepare_data : answer .audio 0x0300000000000001#64 State.reset = some 0x0100000000000000#64 := by
  decide +kernel
theorem test_setcfg_sel : answer .audio 0x0103000000000000#64 State.reset = some 0x0200000000000000#64 := by
  decide +kernel
theorem test_setcfg_store : readNext (·.cfg.maxBlock) (exec (.setcfg 1 4) State.reset) = some 4 := by decide +kernel
theorem test_getcfg : answer .audio 0x0202000000000000#64 (State.reset.setCfg .numCh 2) = some 2 := by decide +kernel
theorem test_setparam_sel : answer .control 0x101500003F000000#64 State.reset = some 0x0200000000000000#64 := by
  decide +kernel
theorem test_getmeter_sel : answer .monitor 0x2004000000000000#64 State.reset = some 0x0200000000000000#64 := by
  decide +kernel
theorem test_getmeter : answer .monitor 0x2002000000000000#64 (State.reset.setMeter .outL k0_7) =
    some 0x000000003F333333#64 := by decide +kernel
theorem test_wrbuf_order : answer .audio 0x0600200000000000#64 State.reset = some 0x0500000000000000#64 ∧
    answer .audio 0x0605232800000000#64 State.reset = some 0x0200000000000000#64 := by decide +kernel
theorem test_wrbuf_last : readNext (·.buf.get? .left 8191) (exec (.wrbuf 0 8191 0) State.reset) = some (some 0) := by
  decide +kernel
theorem test_rdbuf : answer .audio 0x0701000000000000#64 { State.reset with buf := frame1 k1 0x40400000 } =
    some 0x0000000040400000#64 := by decide +kernel
theorem test_rdbuf_unwritten : exec (.rdbuf 0 0) State.reset = .refused .unwrittenWord := rfl
theorem test_getstatus_sticky : answer .control 0x0800000000000000#64
    { State.reset with status := { prepared := true, eIllegal := true, eSel := true, eNotPrep := true, eLen := true,
                                   eIndex := true, ePort := true },
                       bypassPrev := true, family := .steel } = some 0x0000000000003F0B#64 := by decide +kernel
theorem test_raise_sticky : readNext (·.statusWord) (exec (.getcfg 3) State.reset) = some 0x00000200#32 := by
  decide +kernel
theorem test_legalise_float : [0x3FC00000#32, 0x7FC00000#32, kn1, 0x80000000#32, plusInf].map (legalise (.mix .rust)) =
    [k1, 0, 0, 0x80000000#32, k1] := by decide +kernel
theorem test_legalise_switch : legalise .preampType 7 = 2 ∧ legalise .bypass 0x100 = 1 := by decide +kernel
theorem test_prepare_default_rate : (effectiveRate 0, effectiveRate 0x43FA0000, effectiveRate plusInf) =
    (0x472C4400#32, 0x45FA0000#32, 0x483B8000#32) := by decide +kernel
theorem test_prepare_block : [0, 1, 8192, 0x80000000].map effectiveBlock = [1, 1, 8192, 8192] := by decide +kernel

/-! ## Smoothers (95_test_vectors.md 2.1) -/

theorem test_settarget_new_ramp : readNext (fun t => t.smoother .tone)
    (exec (.svSettarget .tone 0) (State.reset.setSmoother .tone (smooth k0_5 k1 2 k0_25 4))) =
      some (smooth k0_5 0 4 0xBE000000#32 4) := by decide +kernel
theorem test_settarget_at_once : readNext (fun t => t.smoother .out)
    (exec (.svSettarget .out 0x3F400000) State.reset) = some (smooth 0x3F400000#32 0x3F400000#32 0 0 0) := by
  decide +kernel
theorem test_settarget_increment : readNext (fun t => (t.smoother .drive).increment)
    (exec (.svSettarget .drive k1) (State.reset.setSmoother .drive (smooth 0 0 0 0 960))) = some 0x3A888889#32 := by
  decide +kernel
theorem test_next_adds : readNext (fun t => (t.wires, t.smoother .drive))
    (exec (.svNext .drive) (State.reset.setSmoother .drive (smooth 0x3C23D70A#32 0x3DCCCCCD#32 9 0x3C23D70A#32 10))) =
      some ([0x3CA3D70A#32], smooth 0x3CA3D70A#32 0x3DCCCCCD#32 8 0x3C23D70A#32 10) := by decide +kernel
theorem test_next_lands : readNext (fun t => (t.wires, t.smoother .drive))
    (exec (.svNext .drive) (State.reset.setSmoother .drive (smooth 0x3DB851EA#32 0x3DCCCCCD#32 1 0x3C23D70A#32 10))) =
      some ([0x3DCCCCCD#32], smooth 0x3DCCCCCD#32 0x3DCCCCCD#32 0 0x3C23D70A#32 10) := by decide +kernel
theorem test_current : readNext (·.wires) (exec (.svCurrent .drive)
    (State.reset.setSmoother .drive (smooth k0_5 k1 2 k0_25 4))) = some [k0_5] := by decide +kernel
theorem test_snap : readNext (fun t => t.smoother .tone)
    (exec (.svSnap .tone) (State.reset.setSmoother .tone (smooth k0_5 k0_3 2 k0_25 4))) =
      some (smooth k0_3 k0_3 0 0 4) := by decide +kernel
theorem test_svreset_length : readNext (fun t => (t.smoother .tone).numSteps)
    (exec (.svReset .tone 0x473B8000#32 (dec 8 100000)) State.reset) = some 4 := by decide +kernel

/-! ## Filters (95_test_vectors.md 2.2) -/

/-- The recurrence example after one sample of the step input. -/
def stepFilter : Biquad :=
  { b0 := k0_5, b1 := k0_25, b2 := k0_125, a1 := 0xBF000000, a2 := k0_25, x1 := k1, x2 := 0, y1 := k0_5, y2 := 0 }

theorem test_bq_process : readNext (fun t => (t.wires, (t.filter .dcL).x2, (t.filter .dcL).y2))
    (exec (.bqProcess .dcL k1) (State.reset.setFilter .dcL stepFilter)) = some ([k1], k1, k0_5) := by decide +kernel
theorem test_bq_tail : readNext (·.wires) (exec (.bqProcess .dcR 0)
    (State.reset.setFilter .dcR { stepFilter with x1 := 0, y1 := 0, y2 := k0_25 })) = some [0xBD800000#32] := by
  decide +kernel
theorem test_bq_reset : readNext (fun t => t.filter .hazeL)
    (exec (.bqReset .hazeL) (State.reset.setFilter .hazeL stepFilter)) =
      some { stepFilter with x1 := 0, y1 := 0 } := by decide +kernel
theorem test_bq_setc_keeps_history : readNext (fun t => ((t.filter .hazeL).x1, (t.filter .hazeL).y1, t.filter .hazeR))
    (exec (.bqSetcBp .hazeL k800 k2 0x473B8000#32) (State.reset.setFilter .hazeL stepFilter)) =
      some (k1, k0_5, Biquad.zero) := by decide +kernel

/-! ## Delay lines (95_test_vectors.md 2.3) -/

theorem test_readi : readNext (fun t => t.wires.headD 0) (exec (.dlReadi .cascade 1) lineState) = some 0x41300000#32 ∧
    readNext (fun t => t.wires.headD 0) (exec (.dlReadi .cascade 8) lineState) = some 0x40800000#32 := by decide +kernel
theorem test_readf : [0x40200000#32, 0x40400000#32, k0_25, 0, 0x40F00000#32].map
    (fun t => readNext (fun s => s.wires.headD 0) (exec (.dlReadf .cascade .left t) lineState)) =
      [some 0x41180000#32, some 0x41100000#32, some 0x40B80000#32, some 0x40800000#32, some 0x40900000#32] := by
  decide +kernel
theorem test_dlwrite : readNext (fun t => ((t.delay .cascade).get .left 3, (t.delay .cascade).get .right 3))
    (exec (.dlWrite .cascade k1 0x80000000) lineState) = some (k1, 0x80000000#32) := by decide +kernel
theorem test_dladvance_wraps : readNext (fun t => (t.delay .cascade).writePos)
    (exec (.dlAdvance .cascade) (State.reset.setDelay .cascade { line8 with writePos := 7 })) = some 0 := by decide +kernel
theorem test_dlclear : readNext (fun t => ((t.delay .cascade).bufL, (t.delay .cascade).writePos))
    (exec (.dlClear .cascade) lineState) = some ([], 0) := by decide +kernel
theorem test_dlsize : readNext (fun t => (t.delay .grind).cap)
    (exec (.dlSize .grind k0_3 0 0x472C4400#32) State.reset) = some 13231 := by decide +kernel
theorem test_dl_unsized : exec (.dlReadi .echo 1) State.reset = .fault .delayUnsized := rfl

/-! ## Primitives (95_test_vectors.md 2.4) -/

theorem test_hardclip : [0x3FE66666#32, 0xC02CCCCD#32, 0x80000000#32, k0_5].map (fun x => wires (.hardclip x)) =
    [[k1], [kn1], [0x80000000#32], [k0_5]] := by decide +kernel
theorem test_xfmr_sat : [k0_7, 0x3F600000#32, 0xBF600000#32, 0x3FA66666#32, 0xC0400000#32].map (fun x => wires (.xfmrSat x)) =
    [[k0_7], [0x3F49999A#32], [0xBF49999A#32], [k1], [kn1]] := by decide +kernel
theorem test_softclip_zero : wires (.softclip 0) = [0] := by decide +kernel
theorem test_ember_shape_zero : wires (.emberShape 0) = [0] := by decide +kernel
theorem test_quant : [(k0_3, k8), (0xBE99999A#32, k8), (0x3B800000#32, k8), (k0_3, k4), (k0_3, k16), (k0_6, k10)].map
    (fun x => wires (.quant x.1 x.2)) =
      [[0x3E980000#32], [0xBE980000#32], [0x3C000000#32], [k0_25], [0x3E999800#32], [0x3F198000#32]] := by decide +kernel
theorem test_lfo_advance : wires (.lfoAdvance 0 k0_3 0x473B8000#32) = [0x36D1B718#32] ∧
    wires (.lfoAdvance 0x3751B718#32 k0_3 0x473B8000#32) = [0x379D4952#32] := by decide +kernel
theorem test_lfo_wraps : wires (.lfoAdvance 0x3F400000#32 k1 k2) = [k0_25] := by decide +kernel
theorem test_lfo_sine_zero : wires (.lfoSine 0) = [0] := by decide +kernel
theorem test_lfo_tri : [0, k0_25, k0_5, 0x3F400000#32].map (fun p => wires (.lfoTri p)) = [[0], [k0_5], [k1], [k0_5]] := by
  decide +kernel
theorem test_env_step : wires (.envStep 0 k1 k0_25 k0_5) = [0x3F400000#32] ∧ wires (.envStep k1 0 k0_25 k0_5) = [k0_5] := by
  decide +kernel
theorem test_gate : [0, dec 25 1000, dec 49 1000, k0_05, k0_5].map (fun x => wires (.gate x)) =
    [[0], [k0_5], [0x3F7AE147#32], [k1], [k1]] := by decide +kernel
theorem test_db2lin_unity : wires (.db2lin 0x3F2AAAAB) = [k1] := by decide +kernel
theorem test_rectify : wires (.rectify 0xBEE66666) = [k0_45] ∧ wires (.rectify 0x80000000) = [0] := by decide +kernel
theorem test_xfade : wires (.xfade k0_7 (dec 1 10) k1) = [0x3DCCCCD0#32] ∧ wires (.xfade k0_3 k0_9 k0_5) = [0x3F19999A#32] ∧
    wires (.xfade k0_7 k1 0) = [k0_7] := by decide +kernel

/-! ## METER.UPDATE and PROCESS: the open METER_DECAY has no value a kernel could evaluate, so these are proved -/

/-- A number brought into [0, 1] is finite. -/
theorem isFin_within (r : F32) : isFin (within 0 k1 r) = true := by
  unfold within
  split
  · next h =>
    simp only [Bool.and_eq_true, fLe, decide_eq_true_eq] at h
    obtain ⟨⟨-, h0⟩, ⟨-, h1⟩⟩ := h
    have e0 : fKey 0 = 0 := by decide
    have e1 : fKey k1 = 1065353216 := by decide
    rw [e0] at h0
    rw [e1] at h1
    simp only [isFin, fExpo, bne_iff_ne, ne_eq]
    unfold fKey at h0 h1
    split at h0 <;> simp_all <;> omega
  · decide

/-- Zero times a finite number is a zero of either sign. -/
theorem zero_mul_cases {d : F32} (h : isFin d = true) : fMul 0 d = 0 ∨ fMul 0 d = 0x80000000#32 := by
  have hn : isNaN d = false := by simp_all [isNaN, isFin]
  have hi : isInf d = false := by simp_all [isInf, isFin]
  have e : fMul 0 d = fRound (fSign 0 != fSign d) (fUnits 0 * fUnits d) (2 ^ 149) := by
    have h0 : isNaN 0#32 = false := by decide
    have h1 : isInf 0#32 = false := by decide
    simp [fMul, hn, hi, h0, h1]
  have e2 : fUnits 0 = 0 := by decide
  rw [e, e2, Nat.zero_mul]
  cases (fSign 0 != fSign d)
  · exact .inl (by decide +kernel)
  · exact .inr (by decide +kernel)

theorem test_meter_peak : readNext (·.meters.outL) (exec (.meterUpdate .outL k0_3) State.reset) = some k0_3 := by
  rcases zero_mul_cases (isFin_within Config.meterDecayRaw) with h | h
  all_goals
    show some (dMax k0_3 (fMul 0 (within 0 k1 Config.meterDecayRaw))) = some k0_3
    rw [h]
    decide +kernel

/-- A meter update from zero leaves no mark. -/
theorem marks_meterUpdate (k : MeterId) (pk : F32) (s : State) (h : s.meter k = 0) :
    marksOf (meterUpdate k pk s) = {} := by
  have h0 : isFin (fMul 0 meterDecay) = true := by
    rcases zero_mul_cases (isFin_within Config.meterDecayRaw) with h | h
    all_goals
      show isFin (fMul 0 (within 0 k1 Config.meterDecayRaw)) = true
      rw [h]
      decide +kernel
  have hn : marksOf (meterNext 0 pk) = {} := by
    rw [meterNext, marksOf_bind _ fun _ => Writer.pure _, marksOf_cMul, h0]
    rfl
  rw [meterUpdate, marksOf_bind _ fun _ => Writer.pure _, h, hn]
  rfl

theorem meterUpdate_other (k j : MeterId) (pk : F32) (s : State) (h : j ≠ k) :
    (valueOf (meterUpdate k pk s)).meter j = s.meter j := by
  rw [meterUpdate, valueOf_bind _ fun _ => Writer.pure _, valueOf_pure]
  cases k <;> cases j <;> first | rfl | exact absurd rfl h

theorem marks_meterBlock (i o : F32 × F32) (s : State) (h : ∀ k, s.meter k = 0) : marksOf (meterBlock i o s) = {} := by
  unfold meterBlock
  rw [marksOf_bind, marks_meterUpdate _ _ _ (h _), marksOf_bind,
    marks_meterUpdate .inR _ _ (by rw [meterUpdate_other _ _ _ _ (by decide)]; exact h _), marksOf_bind,
    marks_meterUpdate .outL _ _
      (by rw [meterUpdate_other _ _ _ _ (by decide), meterUpdate_other _ _ _ _ (by decide)]; exact h _),
    marks_meterUpdate .outR _ _
      (by rw [meterUpdate_other _ _ _ _ (by decide), meterUpdate_other _ _ _ _ (by decide),
            meterUpdate_other _ _ _ _ (by decide)]; exact h _)]
  · simp
  · exact fun _ => writer_meterUpdate _ _ _
  · exact fun _ => Writer.bind (writer_meterUpdate _ _ _) fun _ => writer_meterUpdate _ _ _
  · exact fun _ => Writer.bind (writer_meterUpdate _ _ _) fun _ =>
      Writer.bind (writer_meterUpdate _ _ _) fun _ => writer_meterUpdate _ _ _

/-! ## Units (95_test_vectors.md 2.6, 2.7, 2.9; vectors that need no function of NUM) -/

theorem test_fracture : frameAfter (.unitFracture 1) (unitState .fracture k1 k0_05 0xBC54FDF4#32) =
    some (some k0_25, some 0xBD800000#32) := by decide +kernel
theorem test_prism : frameAfter (.unitPrism 1)
    { unitState .prism k1 0 k0_25 with units := { (unitState .prism k1 0 k0_25).units with
      prism := { mix := smooth k1 k1 0 0 4, zL := k1, zR := 0xBF000000 } } } =
        some (some 0x3F59999A#32, some 0xBE333334#32) := by decide +kernel
theorem test_prism_skipped : readNext (fun t => (t.buf.get? .left 0, t.units.prism.zL))
    (exec (.unitPrism 1) (unitState .prism 0x3A03126F k1 0)) = some (some k1, 0) := by decide +kernel
theorem test_scorch : frameAfter (.unitScorch 1) (unitState .scorch k1 0xBD4CCCCD#32 k0_2) =
    some (some 0xBEA147AE#32, some 0x3FA66666#32) := by decide +kernel
theorem test_cascade : frameAfter (.unitCascade 1) (State.setDelay { unitState .cascade k1 0 0 with
    units := { (unitState .cascade k1 0 0).units with cascade :=
      { mix := smooth k1 k1 0 0 4, d := .zero, lag0 := 4, lag1 := 5, lag2 := 6, lag3 := 7 } } } .cascade
    { bufL := [(4, k1)], bufR := [], writePos := 0, cap := 8 }) = some (some 0x3EB33333#32, some 0) := by decide +kernel
theorem test_grind_holds : readNext (fun t => (t.buf.get? .left 0, t.units.grind.cnt, t.units.grind.d.get .left 0))
    (exec (.unitGrind 1) { unitState .grind k1 0 0 with
      units := { (unitState .grind k1 0 0).units with grind :=
        { mix := smooth k1 k1 0 0 4, d := { line8 with writePos := 0 }, heldL := k0_25, heldR := 0, cnt := 7, lag := 3 } } }) =
      some (some k0_25, 0, k0_125) := by decide +kernel
theorem test_unit_empty_block : exec (.unitEcho 0) State.reset = .next State.reset := rfl
theorem test_setmix : readNext (fun t => t.smoother (.mix .echo))
    (exec (.unitSetmix .echo k1) (State.reset.setSmoother (.mix .echo) (smooth 0 0 0 0 4))) =
      some (smooth 0 k1 4 k0_25 4) := by decide +kernel

/-! ## One witness for the hypotheses of each obligation that has some -/

/-- A prepared block of one frame, family Filament, output at 0 dB. -/
def stage : State :=
  { State.reset with
    status := { State.reset.status with prepared := true }
    maxblk := 1
    buf := frame1 k0_5 kn1
    holders := { State.reset.holders with output := 0x3F2AAAAB, preampType := 1 } }

/-- Every unit's mix idle at 1 and every delay memory at capacity 8, one frame in the buffer. -/
def readyState : State :=
  let s := allUnits.foldl (fun s u => s.setSmoother (.mix u) (smooth k1 k1 0 0 4)) stage
  [DelayId.drift, .echo, .hazeA, .hazeB, .phase, .cascade, .glistenM, .glistenS, .grind, .rustA, .rustB].foldl
    (fun s d => s.setDelay d line8) s

/-- A command waiting on the audio port: NOP, then GETSTATUS. -/
def waiting : State := (lineState.issue .audio 0).issue .audio 0x0800000000000000#64

theorem witness_DecodeOfEncode : encode (.unitRust 3) = some (.seq (mkUnitWord 0x34#8 3)) := rfl
theorem witness_EncodeOfDecode : decode (.cmd 0x06011FFF40400000#64) = some (.wrbuf 1 8191 0x40400000) := by decide
theorem witness_CheckOrder_refused :
    [0x0900000000000000#64, 0x0103000000000000#64, 0x0400000000000000#64, 0x0600200000000000#64, 0x100000003F800000#64].map
      (firstError · State.reset) = [some .illegal, some .sel, some .notPrep, some .index, some .port] ∧
    firstError 0x0500000000000002#64 stage = some .len ∧ firstError 0x0500000000000001#64 stage = none := by decide
theorem witness_CheckOrder_performed : firstError 0x0800000000000000#64 State.reset = none ∧
    ∃ t, runCommand 0x0800000000000000#64 State.reset = .next t := ⟨by decide, _, rfl⟩
theorem witness_CheckOrder_rows : ([0x09, 0x0F, 0x12, 0x1F, 0x21, 0xFF].map fun b => rowOf (mkCmd b 0 0 0)) =
      List.replicate 6 none ∧
    ([0x08, 0x10, 0x11, 0x20].map fun b => (rowOf (mkCmd b 0 0 0)).isSome) = List.replicate 4 true := by decide
theorem witness_RaiseIsPrecise : (raise .sel State.reset).sticky .sel = true ∧
    step (raise .sel State.reset) = .next (raise .sel State.reset) := ⟨by decide, rfl⟩
theorem witness_PortRights_refused : decodeCmd 0x1003000000000001#64 = .instr .setparam (.setparam 3 1) ∧
    State.reset.granted ∉ rights .setparam := by decide
theorem witness_PortRights_allowed : decodeCmd 0x0800000000000000#64 = .instr .getstatus .getstatus ∧
    State.reset.granted ∈ rights .getstatus ∧ ∃ t, exec .getstatus State.reset = .next t :=
  ⟨by decide, by decide, _, rfl⟩
theorem witness_StepRunsDecoded_slot : { State.reset with dispatch := [0x21#144] }.dispatch = 0x21#144 :: [] ∧
    decodeSeq 0x21#144 = some (.unitPrism 0) ∧ decodeTableWord 8 0x21 = some (.unitPrism 0) := by decide
theorem witness_StepRunsDecoded_command : waiting.dispatch = [] ∧ (∃ s1, nextCommand waiting = some (0, s1)) ∧
    decodeCmd 0 = .instr .nop .nop ∧ (waiting.port .audio).commands = 0 :: [0x0800000000000000#64] ∧
    (∀ q, q ≠ .audio → (waiting.port q).commands = []) ∧ decodeTableWord 64 0 = some .nop :=
  ⟨rfl, ⟨_, rfl⟩, by decide, rfl, fun q h => by cases q <;> first | rfl | exact absurd rfl h, by decide⟩
theorem witness_StepRunsDecoded_idle : State.reset.dispatch = [] ∧ ∀ p, (State.reset.port p).commands = [] :=
  ⟨rfl, fun p => by cases p <;> rfl⟩
theorem witness_PortOrderKept : waiting.dispatch = [] ∧ ∃ t, step waiting = .next t := ⟨rfl, _, rfl⟩
theorem witness_ReadCommands : State.reset.granted = .audio ∧ 2 < (3#8).toNat ∧ (0x15#8) ∉ holderTable.map (·.1) ∧
    3 < (4#8).toNat := by decide
theorem witness_SetcfgStores : State.reset.granted = .audio ∧ (2#8, CfgId.numCh) ∈ cfgTable ∧ 2 < (3#8).toNat := by decide
theorem witness_BufferCommands : stage.granted = .audio ∧ (1#8, Channel.right) ∈ channelTable ∧
    (8191#16).toNat < 8192 ∧ 8192 ≤ (8192#16).toNat ∧ stage.buf.get? .right 0 = some kn1 ∧
    stage.buf.get? .right 8191 = none ∧ 1 < (2#8).toNat := by decide
theorem witness_SetparamStores : { State.reset with granted := .control }.granted = .control ∧
    (0x34#8, HolderId.mix .rust) ∈ holderTable ∧ (5#8) ∉ holderTable.map (·.1) := by decide
theorem witness_PrepareDerives : State.reset.granted = .audio := rfl
theorem witness_StateAfterPrepare : stage.granted = .audio := rfl
theorem witness_PrepareSizesSafe : (State.reset.setCfg .sampleRate 0x45FA0000#32).granted = .audio := rfl
theorem witness_StateAfterReset : stage.granted = .audio ∧ stage.status.prepared = true := by decide
theorem witness_ResetIdempotent : readyState.granted = .audio ∧ readyState.status.prepared = true := by decide
theorem witness_BypassLeavesBuffer :
    let s := State.setHolder stage .bypass 1
    processAllowed 1 s ∧ s.holders.bypass ≠ 0 ∧ marksOf (processLatch s) = {} ∧ s.bypassPrev = false :=
  ⟨⟨rfl, rfl, by decide⟩, by decide, by decide +kernel, rfl⟩
theorem witness_BypassLeavesBuffer_again :
    let s := State.setHolder { stage with bypassPrev := true } .bypass 1
    processAllowed 1 s ∧ s.holders.bypass ≠ 0 ∧ marksOf (processLatch s) = {} ∧ s.bypassPrev = true :=
  ⟨⟨rfl, rfl, by decide⟩, by decide, by decide +kernel, rfl⟩

/-- A prepared block of one frame in which Prism sounds: its mix is 1, its comb holds a sample, and the input is silent.
The rate is no rate PREPARE derives: at it the angle of every filter is a zero, the one angle at which R8 gives the cosine
and the sine. -/
def sounding : State :=
  { stage with
    sr := 0x00800001
    buf := frame1 0 0
    holders := { stage.holders with filPrism := k1 }
    units := { stage.units with prism := { stage.units.prism with zL := k1, zR := 0xBF000000 } } }

theorem sounding_clean : blockClean 1 sounding := by
  have hb : latchedBypass sounding = false := by decide +kernel
  have hl : marksOf (processLatch sounding) = {} := by decide +kernel
  have hp : marksOf (peaks (latched sounding).buf 1 0 (k0, k0)) = {} := by decide +kernel
  have h1 : marksOf (preamp 1 (latched sounding)) = {} := by decide +kernel
  have h2 : marksOf (runChain 1 (valueOf (preamp 1 (latched sounding)))) = {} := by decide +kernel
  have h3 : marksOf (peaks (valueOf (runChain 1 (valueOf (preamp 1 (latched sounding))))).buf 1 0 (k0, k0)) = {} := by
    decide +kernel
  have hm : ∀ k, (valueOf (runChain 1 (valueOf (preamp 1 (latched sounding))))).meter k = 0 := fun k => by
    cases k <;> decide +kernel
  have hf : marksOf (processFrames 1 (latched sounding)) = {} := by
    rw [processFrames, marksOf_bind _ fun _ => ?_, hp, marksOf_bind _ fun _ => ?_, h1, marksOf_bind _ fun _ => ?_, h2,
      marksOf_bind _ fun _ => writer_meterBlock _ _ _, h3, marks_meterBlock _ _ _ hm]
    · rfl
    · exact Writer.bind (writer_peaks _ _ _ _) fun _ => writer_meterBlock _ _ _
    · exact Writer.bind (writer_runChain _ _) fun _ =>
        Writer.bind (writer_peaks _ _ _ _) fun _ => writer_meterBlock _ _ _
    · exact Writer.bind (writer_preamp _ _) fun _ => Writer.bind (writer_runChain _ _) fun _ =>
        Writer.bind (writer_peaks _ _ _ _) fun _ => writer_meterBlock _ _ _
  unfold latched at hf
  simp only [blockClean, processBlock, hb, Bool.false_eq_true, if_false]
  rw [marksOf_bind _ fun a => Writer.bind (writer_processFrames _ _) fun _ => Writer.pure _, hl,
    marksOf_bind _ fun _ => Writer.pure _, hf]
  simp only [marksOf_pure, Marks.join_empty]

/-- The block is not silent: Prism's comb is heard. -/
theorem test_sounding_heard :
    (valueOf (runChain 1 (valueOf (preamp 1 (latched sounding))))).buf.get? .left 0 = some 0x3F59999A#32 := by
  decide +kernel

theorem witness_ProcessIsItsStages :
    processAllowed 1 sounding ∧ sounding.holders.bypass = 0 ∧ blockClean (1#32).toNat sounding :=
  ⟨⟨rfl, rfl, by decide⟩, rfl, sounding_clean⟩
theorem witness_ProcessFrame : processAllowed 1 sounding ∧ blockClean (1#32).toNat sounding :=
  ⟨⟨rfl, rfl, by decide⟩, sounding_clean⟩
theorem witness_BqZeroInZeroOut :
    let b := (State.reset.setFilter .dcL { stepFilter with x1 := 0, y1 := 0x80000000 }).filter .dcL
    isFin b.b0 ∧ isFin b.b1 ∧ isFin b.b2 ∧ isFin b.a1 ∧ isFin b.a2 ∧ b.x1 = 0 ∧ b.x2 = 0 ∧ b.y1 = 0x80000000#32 ∧
      b.y2 = 0 := by decide
theorem witness_PairInvKept : PairInv waiting ∧ ∃ t, step waiting = .next t :=
  ⟨⟨rfl, by decide⟩, _, rfl⟩
theorem witness_RampEndsOnTarget :
    let s := State.reset.setSmoother .drive (smooth 0 0 0 0 1)
    dEq k1 (s.smoother .drive).target = false ∧ 1 ≤ (s.smoother .drive).numSteps := by decide
theorem witness_DlWriteAdvance : (lineState.delay .cascade).cap ≠ 0 ∧ (lineState.delay .echo).cap = 0 := by decide
theorem witness_DlTaps : (lineState.delay .cascade).cap ≠ 0 ∧ (State.reset.delay .rustB).cap = 0 := by decide
theorem witness_DelayRoundTrip : (lineState.delay .cascade).writePos < (lineState.delay .cascade).cap ∧
    (List.replicate 7 (k1, k2)).length + 1 ≤ (lineState.delay .cascade).cap := by decide
theorem witness_ShaperBounds : isFin 0x7F7FFFFF#32 = true ∧ isFin 0x00000001#32 = true := by decide
theorem witness_CathodeFrames : ∀ u ∈ [UnitId.ember, .velvet, .drift, .echo, .haze],
    frameAt u readyState k0_5 kn1 k1 ∧ ∀ d ∈ owned u, (readyState.delay d).cap ≠ 0 := by
  unfold frameAt
  decide
theorem witness_FilamentFrames : ∀ u ∈ [UnitId.fracture, .prism, .phase, .cascade, .glisten],
    frameAt u readyState k0_5 kn1 k1 ∧ ∀ d ∈ owned u, (readyState.delay d).cap ≠ 0 := by
  unfold frameAt
  decide
theorem witness_SteelFrames : ∀ u ∈ [UnitId.scorch, .snarl, .shred, .grind, .rust],
    frameAt u readyState k0_5 kn1 k1 ∧ ∀ d ∈ owned u, (readyState.delay d).cap ≠ 0 := by
  unfold frameAt
  decide

theorem ready_held : framesHeld readyState.buf 1 := fun ch i h => by
  obtain rfl : i = 0 := by omega
  cases ch <;> decide

theorem witness_UnitsComplete : ∀ u ∈ allUnits, unitReady u (1#32).toNat readyState := fun u hu =>
  ⟨by decide, ready_held, by revert u; decide⟩
/-- A mix one third of the way from 0 to 0.0005. -/
def quietRamp : Smoother := smooth 0x392EC33E#32 0x3A03126F#32 2 0x392EC33E#32 3
theorem witness_SilentUnitsRest_ramping : ((State.reset.setSmoother (.mix .echo) quietRamp).smoother (.mix .echo)) = quietRamp ∧
    ∀ k, 1 ≤ k → k ≤ (2#32).toNat → dLt (advanced k quietRamp).current mixSilence = true :=
  ⟨rfl, fun k h1 h2 => by
    obtain rfl | rfl : k = 1 ∨ k = 2 := by have : (2#32).toNat = 2 := rfl; omega
    all_goals decide +kernel⟩
theorem witness_SilentUnitsRest : ∀ u ∈ allUnits, (State.reset.smoother (.mix u)).stepsRemaining = 0 ∧
    dLt (State.reset.smoother (.mix u)).current mixSilence = true := by decide
theorem witness_BlocksAreTheirFrames : (∀ u ∈ allUnits, unitReady u (1#32).toNat readyState) ∧ (1#32).toNat ≤ 8192 ∧
    framesHeld readyState.buf (1#32).toNat := ⟨witness_UnitsComplete, by decide, ready_held⟩
theorem witness_PreampFrame : readyState.buf.get? .left 0 = some k0_5 ∧ readyState.buf.get? .right 0 = some kn1 := by decide
theorem witness_PreampCompletes : (1#32).toNat ≤ 8192 ∧ framesHeld readyState.buf (1#32).toNat :=
  ⟨by decide, ready_held⟩
theorem witness_MemoryInvKept : MemoryInv waiting ∧ ∃ t, step waiting = .next t :=
  ⟨⟨by decide, fun d => by cases d <;> first | exact .inl rfl | exact .inr (by decide), .inl rfl⟩, _, rfl⟩
theorem witness_SmootherInvKept : SmootherInv waiting ∧ ∃ t, step waiting = .next t :=
  ⟨fun v => by
    cases v
    case mix u => cases u <;> exact ⟨Nat.le_refl _, fun _ => rfl⟩
    all_goals exact ⟨Nat.le_refl _, fun _ => rfl⟩, _, rfl⟩
theorem witness_HolderInvKept : HolderInv { stage with control := { commands := [0x0800000000000000#64], responses := [] } } ∧
    ∃ t, step { stage with control := { commands := [0x0800000000000000#64], responses := [] } } = .next t :=
  ⟨⟨fun h => by
    cases h
    case mix u => cases u <;> exact ⟨by decide, by decide⟩
    all_goals first | exact ⟨by decide, by decide⟩ | (simp only [legalWord]; decide), fun _ => by decide⟩, _, rfl⟩
theorem witness_MeterInvKept : MeterInv waiting ∧ ∃ t, step waiting = .next t :=
  ⟨fun k => by cases k <;> decide, _, rfl⟩
theorem mixBelow_waiting (u : UnitId) (hu : u ∈ [UnitId.shred, .grind]) : mixBelow u waiting := by
  have h : ∀ u ∈ [UnitId.shred, .grind],
      ∀ x ∈ [waiting.smoother (.mix u), settargetRule (waiting.smoother (.mix u)) (waiting.holders.get (.mix u)),
        snapRule (settargetRule (waiting.smoother (.mix u)) (waiting.holders.get (.mix u)))],
      x.stepsRemaining = 0 ∧ fLt x.current 0x3F924924#32 = true := by decide +kernel
  intro x hx k
  rw [advanced_idle k (h u hu x hx).1]
  exact (h u hu x hx).2
theorem phases_waiting : ∀ p ∈ phases waiting, fLe k0 p = true ∧ fLt p k1 = true := fun p hp => by
  have h : phases waiting = List.replicate 4 0 := rfl
  rw [h] at hp
  rw [List.eq_of_mem_replicate hp]
  decide
theorem witness_PhaseCounterInvKept : PhaseCounterInv waiting ∧ mixBelow .shred waiting ∧ mixBelow .grind waiting ∧
    ∃ t, step waiting = .next t :=
  ⟨⟨rfl, phases_waiting, Nat.zero_le _, fun h => nomatch h⟩, mixBelow_waiting _ (by decide), mixBelow_waiting _ (by decide),
    _, rfl⟩
theorem test_mix_bound : fLt (fMul 0x3F924924 k7) k8 = true ∧ fLt 0x3F924924 (fDiv k8 k7) = true := by decide +kernel

end Sys2Proof.Tests
end

section
/-! The register files of the state (10_state.md R30, R51): an entry written leaves every other entry as it is, and writing
the old value back restores the state. -/

namespace Sys2Proof.Proofs

open Sys2Proof Sys2Proof.Machine Sys2Proof.Safety

theorem holder_setHolder_ne (s : State) {i j : HolderId} (x : Word) (h : j ≠ i) :
    (s.setHolder i x).holder j = s.holder j := by
  cases i with
  | mix u =>
    cases j with
    | mix v => cases u <;> cases v <;> first | rfl | exact absurd rfl h
    | _ => cases u <;> rfl
  | _ =>
    cases j with
    | mix v => cases v <;> rfl
    | _ => first | rfl | exact absurd rfl h

theorem setHolder_restore (s : State) (i : HolderId) (x : Word) : (s.setHolder i x).setHolder i (s.holder i) = s := by
  cases i with
  | mix u => cases u <;> rfl
  | _ => rfl

theorem cfgReg_setCfg_ne (s : State) {i j : CfgId} (x : Word) (h : j ≠ i) : (s.setCfg i x).cfgReg j = s.cfgReg j := by
  cases i <;> cases j <;> first | rfl | exact absurd rfl h

theorem setCfg_restore (s : State) (i : CfgId) (x : Word) : (s.setCfg i x).setCfg i (s.cfgReg i) = s := by
  cases i <;> rfl

theorem meter_setMeter_ne (s : State) {i j : MeterId} (x : F32) (h : j ≠ i) : (s.setMeter i x).meter j = s.meter j := by
  cases i <;> cases j <;> first | rfl | exact absurd rfl h

theorem setMeter_restore (s : State) (i : MeterId) (x : F32) : (s.setMeter i x).setMeter i (s.meter i) = s := by
  cases i <;> rfl

theorem smoother_setSmoother_ne (s : State) {i j : SmootherId} (x : Smoother) (h : j ≠ i) :
    (s.setSmoother i x).smoother j = s.smoother j := by
  cases i with
  | mix u =>
    cases j with
    | mix v => cases u <;> cases v <;> first | rfl | exact absurd rfl h
    | _ => cases u <;> rfl
  | _ =>
    cases j with
    | mix v => cases v <;> rfl
    | _ => first | rfl | exact absurd rfl h

theorem setSmoother_restore (s : State) (i : SmootherId) (x : Smoother) :
    (s.setSmoother i x).setSmoother i (s.smoother i) = s := by
  cases i with
  | mix u => cases u <;> rfl
  | _ => rfl

theorem filter_setFilter_ne (s : State) {i j : FilterId} (x : Biquad) (h : j ≠ i) :
    (s.setFilter i x).filter j = s.filter j := by
  cases i <;> cases j <;> first | rfl | exact absurd rfl h

theorem setFilter_restore (s : State) (i : FilterId) (x : Biquad) :
    (s.setFilter i x).setFilter i (s.filter i) = s := by cases i <;> rfl

theorem delay_setDelay_ne (s : State) {i j : DelayId} (x : DelayLine) (h : j ≠ i) :
    (s.setDelay i x).delay j = s.delay j := by
  cases i <;> cases j <;> first | rfl | exact absurd rfl h

theorem setDelay_restore (s : State) (i : DelayId) (x : DelayLine) : (s.setDelay i x).setDelay i (s.delay i) = s := by
  cases i <;> rfl

/-- Settles O11: the laws above, one for each clause. -/
theorem registerFilesHold : Obligations.RegisterFilesHold := by
  refine ⟨fun s i x => ⟨?_, fun j => holder_setHolder_ne s x, setHolder_restore s i x⟩,
    fun s i x => ⟨?_, fun j => cfgReg_setCfg_ne s x, setCfg_restore s i x⟩,
    fun s i x => ⟨?_, fun j => meter_setMeter_ne s x, setMeter_restore s i x⟩,
    fun s i x => ⟨?_, fun j => smoother_setSmoother_ne s x, setSmoother_restore s i x⟩,
    fun s i x => ⟨?_, fun j => filter_setFilter_ne s x, setFilter_restore s i x⟩,
    fun s i x => ⟨?_, fun j => delay_setDelay_ne s x, setDelay_restore s i x⟩⟩
  · exact State.setHolder_holder s i x
  · exact State.setCfg_cfgReg s i x
  · exact State.setMeter_meter s i x
  · exact State.setSmoother_smoother s i x
  · exact State.setFilter_filter s i x
  · exact State.setDelay_delay s i x

/-! ## Power-on and STATUS -/

/-- Settles O8: the value of each register file at power-on (10_state.md R49). -/
theorem powerOnValues : Obligations.PowerOnValues := by
  refine ⟨fun r => ?_, fun h => ?_, by decide, rfl, rfl, fun v => ?_, fun k => ?_, fun ch i => ?_⟩
  · cases r <;> rfl
  · cases h with
    | mix u => cases u <;> rfl
    | _ => rfl
  · cases v with
    | mix u => cases u <;> rfl
    | _ => rfl
  · cases k <;> rfl
  · cases ch <;> rfl

/-- A bit of a word with at most one bit set. -/
theorem getLsbD_bitAt (b : Bool) (k : Nat) {j : Nat} (hj : j < 32) : (bitAt b k).getLsbD j = (b && decide (j = k)) := by
  cases b
  · simp [bitAt]
  · have h : (decide (j = k)) = (!decide (j < k) && decide (j - k = 0)) := by
      rw [Bool.eq_iff_iff]
      simp
      omega
    simp [bitAt, hj, h]

/-- A bit of the family's place in STATUS. -/
theorem getLsbD_familyField (f : Family) {j : Nat} (hj : j < 32) :
    ((familyCode f).setWidth 32 <<< 2).getLsbD j = (decide (2 ≤ j ∧ j < 4) && (familyCode f).getLsbD (j - 2)) := by
  by_cases h : 2 ≤ j
  · by_cases h' : j < 4
    · have hlt : ¬ j < 2 := by omega
      rw [BitVec.getLsbD_shiftLeft, BitVec.getLsbD_setWidth]
      simp only [hj, hlt, h, h', show j - 2 < 32 by omega, and_self, decide_true, decide_false, Bool.not_false, Bool.true_and]
    · have h0 : (familyCode f).getLsbD (j - 2) = false := BitVec.getLsbD_of_ge _ _ (by omega)
      simp [h', h0]
  · simp [h, Nat.not_le.mp h]

/-- Every bit of STATUS is the bit of one of its parts (10_state.md R34). -/
theorem getLsbD_statusWord (s : State) {j : Nat} (hj : j < 32) :
    s.statusWord.getLsbD j =
      (s.status.prepared && decide (j = 0) || s.bypassPrev && decide (j = 1) ||
        decide (2 ≤ j ∧ j < 4) && (familyCode s.family).getLsbD (j - 2) || s.status.eIllegal && decide (j = 8) ||
        s.status.eSel && decide (j = 9) || s.status.eNotPrep && decide (j = 10) || s.status.eLen && decide (j = 11) ||
        s.status.eIndex && decide (j = 12) || s.status.ePort && decide (j = 13)) := by
  simp only [State.statusWord, BitVec.getLsbD_or, getLsbD_bitAt _ _ hj, getLsbD_familyField _ hj]

/-- A field of STATUS none of whose bits is a part reads zero. -/
theorem statusWord_zero_field (s : State) {lo len : Nat} (h : ∀ i < len, lo + i < 32 ∧ (lo + i < 8 ∧ 4 ≤ lo + i ∨ 14 ≤ lo + i)) :
    s.statusWord.extractLsb' lo len = 0 := by
  refine BitVec.eq_of_getLsbD_eq fun i hi => ?_
  obtain ⟨hlt, hgap⟩ := h i hi
  have hne : ∀ k, k < 2 ∨ 8 ≤ k ∧ k < 14 → ¬ lo + i = k := fun k hk => by omega
  have hfam : ¬ (2 ≤ lo + i ∧ lo + i < 4) := by omega
  rw [BitVec.getLsbD_extractLsb', getLsbD_statusWord s hlt]
  simp (disch := omega) only [hne, hfam, decide_false, Bool.and_false, Bool.or_false, Bool.false_and]
  exact (BitVec.getLsbD_zero ..).symm

/-- Settles O12: every bit of the word is the bit of one of its parts. -/
theorem statusWordLayout : Obligations.StatusWordLayout := by
  intro s
  refine ⟨?_, ?_, ?_, statusWord_zero_field s (by omega), ?_, ?_, ?_, ?_, ?_, ?_, statusWord_zero_field s (by omega)⟩
  case refine_3 =>
    refine BitVec.eq_of_getLsbD_eq fun i hi => ?_
    have hne : ∀ k, k < 2 ∨ 8 ≤ k → ¬ 2 + i = k := fun k hk => by omega
    have hfam : 2 ≤ 2 + i ∧ 2 + i < 4 := by omega
    rw [BitVec.getLsbD_extractLsb', getLsbD_statusWord s (by omega)]
    simp [hne, hfam, hi]
  all_goals rw [getLsbD_statusWord s (by decide)]; simp

end Sys2Proof.Proofs
end

section
/-! The order of binary32 numbers that are not negative, and the rounding of a result between two of them (00_scope.md R7,
R9): what the proofs about holders, meters, phases and counters need of the arithmetic. -/

namespace Sys2Proof.Proofs

open Sys2Proof Sys2Proof.Machine Sys2Proof.Safety

/-! ## Fields and order -/

/-- The 31 bits of the magnitude of an encoding. -/
def magBits (x : F32) : Nat := x.toNat % 2 ^ 31

theorem magBits_lt (x : F32) : magBits x < 2 ^ 31 := Nat.mod_lt _ (by decide)

/-- The magnitude is the exponent and the fraction. -/
theorem magBits_eq (x : F32) : magBits x = fExpo x * 2 ^ 23 + fFrac x := by
  unfold magBits fExpo fFrac
  omega

theorem fFrac_lt (x : F32) : fFrac x < 2 ^ 23 := Nat.mod_lt _ (by decide)

theorem isNaN_eq_false {x : F32} : isNaN x = false ↔ magBits x ≤ 0x7F800000 := by
  have hf := fFrac_lt x
  have he : fExpo x < 2 ^ 8 := Nat.mod_lt _ (by decide)
  simp only [isNaN, Bool.and_eq_false_iff, beq_eq_false_iff_ne, bne_eq_false_iff_eq, magBits_eq]
  omega

theorem isFin_iff {x : F32} : isFin x = true ↔ magBits x < 0x7F800000 := by
  have hf := fFrac_lt x
  have he : fExpo x < 2 ^ 8 := Nat.mod_lt _ (by decide)
  simp only [isFin, bne_iff_ne, magBits_eq]
  omega

/-- `a <= b`, from the parts of the encodings (R9). -/
theorem fLe_iff {a b : F32} : fLe a b = true ↔ isNaN a = false ∧ isNaN b = false ∧ fKey a ≤ fKey b := by
  simp [fLe, and_assoc]

theorem fLt_iff {a b : F32} : fLt a b = true ↔ isNaN a = false ∧ isNaN b = false ∧ fKey a < fKey b := by
  simp [fLt, and_assoc]

/-- What is not less is not smaller, for two numbers. -/
theorem fLe_of_not_fLt {a b : F32} (ha : isNaN a = false) (hb : isNaN b = false) (h : ¬ fLt a b = true) :
    fLe b a = true := by
  simp only [fLt_iff, ha, hb, true_and, not_lt] at h
  exact fLe_iff.mpr ⟨hb, ha, h⟩

theorem fLe_trans {a b c : F32} (h : fLe a b = true) (h' : fLe b c = true) : fLe a c = true := by
  obtain ⟨ha, _, hk⟩ := fLe_iff.mp h
  obtain ⟨_, hc, hk'⟩ := fLe_iff.mp h'
  exact fLe_iff.mpr ⟨ha, hc, hk.trans hk'⟩

theorem fLe_of_fLt {a b : F32} (h : fLt a b = true) : fLe a b = true := by
  obtain ⟨ha, hb, hk⟩ := fLt_iff.mp h
  exact fLe_iff.mpr ⟨ha, hb, hk.le⟩

theorem fLt_of_fLe_of_fLt {a b c : F32} (h : fLe a b = true) (h' : fLt b c = true) : fLt a c = true := by
  obtain ⟨ha, _, hk⟩ := fLe_iff.mp h
  obtain ⟨_, hc, hk'⟩ := fLt_iff.mp h'
  exact fLt_iff.mpr ⟨ha, hc, hk.trans_lt hk'⟩

/-! ## Numbers that are not negative -/

/-- A number that is not negative (10_state.md R48). -/
abbrev nonneg (x : F32) : Prop := fLe k0 x = true

theorem nonneg_iff {x : F32} : nonneg x ↔ magBits x ≤ 0x7F800000 ∧ (fSign x = true → magBits x = 0) := by
  have h0 : isNaN k0 = false := by decide
  have hk : fKey k0 = 0 := by decide
  have hx : fKey x = if fSign x then -(magBits x : Int) else (magBits x : Int) := rfl
  rw [nonneg, fLe_iff, isNaN_eq_false (x := x), hk, hx]
  simp only [h0, true_and]
  cases fSign x <;> simp

theorem fKey_of_nonneg {x : F32} (h : nonneg x) : fKey x = magBits x := by
  have h2 := (nonneg_iff.mp h).2
  have hx : fKey x = if fSign x then -(magBits x : Int) else (magBits x : Int) := rfl
  rw [hx]
  split
  · next hs => rw [h2 hs]; rfl
  · rfl

/-- A subnormal operand read as zero: the magnitude (R7). -/
theorem magBits_daz (x : F32) : magBits (daz x) = if fExpo x = 0 then 0 else magBits x := by
  unfold daz
  split
  · cases fSign x <;> rfl
  · rfl

theorem fSign_daz (x : F32) : fSign (daz x) = fSign x := by
  unfold daz
  split
  · cases h : fSign x <;> rfl
  · rfl

theorem isNaN_daz (x : F32) : isNaN (daz x) = isNaN x := by
  have h : isNaN (daz x) = false ↔ isNaN x = false := by
    rw [isNaN_eq_false, isNaN_eq_false, magBits_daz]
    split
    · next he => have := magBits_eq x; have := fFrac_lt x; rw [he] at *; omega
    · rfl
  exact Bool.eq_iff_iff.mpr (by simpa using not_congr h)

theorem nonneg_daz {x : F32} (h : nonneg x) : nonneg (daz x) := by
  rw [nonneg_iff] at h ⊢
  rw [magBits_daz, fSign_daz]
  split <;> omega

theorem fSign_eq (x : F32) : fSign x = decide (2 ^ 31 ≤ x.toNat) := by
  have hx := x.isLt
  rw [fSign, BitVec.getLsbD, Nat.testBit_eq_decide_div_mod_eq]
  congr 1
  rw [eq_iff_iff]
  omega

theorem magBits_and (x : F32) : magBits (x &&& 0x7FFFFFFF#32) = magBits x ∧ fSign (x &&& 0x7FFFFFFF#32) = false := by
  have h : (x &&& 0x7FFFFFFF#32).toNat = magBits x := by
    rw [BitVec.toNat_and]
    exact Nat.and_two_pow_sub_one_eq_mod x.toNat 31
  constructor
  · rw [magBits, h]; exact Nat.mod_mod _ _
  · rw [fSign_eq, h]; simpa using magBits_lt x

/-- The magnitude of a number is not negative (R9). -/
theorem nonneg_dAbs {x : F32} (h : isNaN x = false) : nonneg (dAbs x) := by
  obtain ⟨hm, hs⟩ := magBits_and (daz x)
  rw [nonneg_iff]
  unfold dAbs
  rw [hm, hs]
  rw [← isNaN_daz, isNaN_eq_false] at h
  exact ⟨h, fun h => nomatch h⟩

theorem nonneg_dMax {a b : F32} (ha : nonneg a) (hb : nonneg b) : nonneg (dMax a b) := by
  unfold dMax
  split
  · exact nonneg_daz ha
  · exact nonneg_daz hb

/-! ## Units -/

theorem fUnits_of_nonneg {x : F32} (h : nonneg x) : fValue x = fUnits x := by
  unfold fValue
  split
  · next hs =>
    have h0 := (nonneg_iff.mp h).2 hs
    have he : fExpo x = 0 := by have := magBits_eq x; omega
    simp [fUnits, he]
  · rfl

/-- A larger magnitude has no fewer units. -/
theorem fUnits_le_of_magBits_le {a b : F32} (h : magBits a ≤ magBits b) : fUnits a ≤ fUnits b := by
  have ha := magBits_eq a
  have hb := magBits_eq b
  have hfa := fFrac_lt a
  have hfb := fFrac_lt b
  unfold fUnits
  split
  · exact Nat.zero_le _
  · have hb0 : fExpo b ≠ 0 := by omega
    rw [if_neg hb0]
    rcases (show fExpo a ≤ fExpo b by omega).eq_or_lt with he | he
    · rw [he] at ha ⊢
      exact Nat.mul_le_mul_right _ (by omega)
    · calc (2 ^ 23 + fFrac a) * 2 ^ (fExpo a - 1) ≤ 2 ^ 24 * 2 ^ (fExpo a - 1) := Nat.mul_le_mul_right _ (by omega)
        _ = 2 ^ 23 * 2 ^ (fExpo a - 1 + 1) := by ring
        _ ≤ 2 ^ 23 * 2 ^ (fExpo b - 1) := Nat.mul_le_mul_left _ (Nat.pow_le_pow_right (by omega) (by omega))
        _ ≤ (2 ^ 23 + fFrac b) * 2 ^ (fExpo b - 1) := Nat.mul_le_mul_right _ (by omega)

theorem fUnits_le_of_fLe {a b : F32} (ha : nonneg a) (h : fLe a b = true) : fUnits a ≤ fUnits b := by
  have hb : nonneg b := fLe_trans ha h
  have hk := (fLe_iff.mp h).2.2
  rw [fKey_of_nonneg ha, fKey_of_nonneg hb] at hk
  exact fUnits_le_of_magBits_le (by omega)

theorem isFin_of_fLe {a b : F32} (ha : nonneg a) (h : fLe a b = true) (hb : isFin b = true) : isFin a = true := by
  have hk := (fLe_iff.mp h).2.2
  rw [fKey_of_nonneg ha, fKey_of_nonneg (fLe_trans ha h)] at hk
  rw [isFin_iff] at hb ⊢
  omega

/-! ## Rounding -/

/-- The parts of a rounding: `num / den` has the integer part `q` and the rest `r` in steps of `2 ^ k` units; it is rounded
to `m` steps, up only where a rest is left. -/
theorem roundMag_parts (num : Nat) {den : Nat} (hd : 0 < den) :
    ∃ k q r m, num = q * (den * 2 ^ k) + r ∧ r < den * 2 ^ k ∧ q < 2 ^ 24 ∧ (0 < k → 2 ^ 23 ≤ q) ∧
      (m = q ∨ (m = q + 1 ∧ 0 < r)) ∧
      roundMag num den =
        (if k * 2 ^ 23 + m < 2 ^ 23 then 0
         else if 0x7F800000 ≤ k * 2 ^ 23 + m then 0x7F800000 else k * 2 ^ 23 + m) := by
  obtain ⟨k, hk⟩ : ∃ k, k = Nat.log2 (num / den) - 23 := ⟨_, rfl⟩
  have hd' : 0 < den * 2 ^ k := by positivity
  refine ⟨k, num / (den * 2 ^ k), num % (den * 2 ^ k), _, (Nat.div_add_mod' _ _).symm, Nat.mod_lt _ hd', ?_, fun h => ?_,
    ?_, by rw [roundMag, ← hk]⟩
  · have hq : num / den < 2 ^ (k + 24) :=
      Nat.lt_log2_self.trans_le (Nat.pow_le_pow_right (by omega) (by omega))
    rw [Nat.div_lt_iff_lt_mul hd'] at *
    rw [Nat.div_lt_iff_lt_mul hd, pow_add] at hq
    linarith
  · have h0 : num / den ≠ 0 := fun h0 => by rw [h0] at hk; simp at hk; omega
    have hq : 2 ^ (k + 23) ≤ num / den :=
      (Nat.pow_le_pow_right (by omega) (by omega)).trans (Nat.log2_self_le h0)
    rw [Nat.le_div_iff_mul_le hd, pow_add] at hq
    rw [Nat.le_div_iff_mul_le hd']
    linarith
  · split
    · next h => exact .inr ⟨rfl, by omega⟩
    · exact .inl rfl

/-- The units of a normal number. -/
theorem fUnits_of_normal {c : F32} (hc : fExpo c ≠ 0) : fUnits c = (2 ^ 23 + fFrac c) * 2 ^ (fExpo c - 1) := if_neg hc

/-- A result not above a normal number is not rounded above it (R7). -/
theorem roundMag_le {num den : Nat} {c : F32} (hd : 0 < den) (hc : fExpo c ≠ 0) (h : num ≤ fUnits c * den) :
    roundMag num den ≤ magBits c := by
  obtain ⟨k, q, r, m, hnum, hr, hq, hk, hm, e⟩ := roundMag_parts num hd
  have hf := fFrac_lt c
  have hmag := magBits_eq c
  rw [fUnits_of_normal hc] at h
  obtain ⟨j, hj⟩ : ∃ j, fExpo c = j + 1 := ⟨fExpo c - 1, by omega⟩
  rw [hj] at h hmag
  have key : k * 2 ^ 23 + m ≤ magBits c := by
    rcases lt_trichotomy k j with hkj | rfl | hkj
    · omega
    · have hqle : q * (den * 2 ^ k) + r ≤ (2 ^ 23 + fFrac c) * (den * 2 ^ k) := by
        rw [← hnum]; calc num ≤ _ := h
          _ = _ := by rw [Nat.add_sub_cancel]; ring
      rcases Nat.lt_or_ge q (2 ^ 23 + fFrac c) with hlt | hge
      · omega
      · have hge' := Nat.mul_le_mul_right (den * 2 ^ k) hge
        have hq' : q ≤ 2 ^ 23 + fFrac c := Nat.le_of_mul_le_mul_right (by omega) (by omega : 0 < den * 2 ^ k)
        omega
    · exfalso
      have h1 : 2 ^ 23 * (den * 2 ^ k) ≤ num := by
        rw [hnum]
        exact (Nat.mul_le_mul_right _ (hk (by omega))).trans (Nat.le_add_right _ _)
      have h2 : num < 2 ^ 23 * (den * 2 ^ (j + 1)) := h.trans_lt <| by
        rw [Nat.add_sub_cancel]
        calc (2 ^ 23 + fFrac c) * 2 ^ j * den < 2 ^ 24 * 2 ^ j * den := by gcongr; omega
          _ = _ := by ring
      have h3 : 2 ^ (j + 1) ≤ 2 ^ k := Nat.pow_le_pow_right (by omega) hkj
      have h4 := Nat.mul_le_mul_left (2 ^ 23) (Nat.mul_le_mul_left den h3)
      omega
  rw [e]
  split
  · omega
  · split <;> omega

/-- A rounding gives the magnitude of a number. -/
theorem roundMag_le_inf (num : Nat) {den : Nat} (hd : 0 < den) : roundMag num den ≤ 0x7F800000 := by
  obtain ⟨k, q, r, m, -, -, -, -, -, e⟩ := roundMag_parts num hd
  rw [e]
  split
  · omega
  · split <;> omega

theorem magBits_fPack (s : Bool) {M : Nat} (h : M < 2 ^ 31) : magBits (fPack s M) = M ∧ fSign (fPack s M) = s := by
  have hn : (fPack s M).toNat = M + if s then 2 ^ 31 else 0 := by
    rw [fPack, BitVec.toNat_ofNat]
    cases s <;> simp <;> omega
  rw [magBits, fSign_eq, hn]
  cases s <;> simp <;> omega

theorem roundMag_zero {den : Nat} (hd : 0 < den) : roundMag 0 den = 0 := by
  simp [roundMag, hd.ne]

/-- A number between zero and `c`. -/
def upTo (x c : F32) : Prop := nonneg x ∧ fLe x c = true

theorem upTo_iff {x c : F32} (hc : nonneg c) : upTo x c ↔ nonneg x ∧ magBits x ≤ magBits c := by
  refine and_congr_right fun hx => ?_
  rw [fLe_iff, fKey_of_nonneg hx, fKey_of_nonneg hc]
  simp [(fLe_iff.mp hx).2.1, (fLe_iff.mp hc).2.1]

theorem upTo.isFin {x c : F32} (h : upTo x c) (hc : isFin c = true) : isFin x = true := isFin_of_fLe h.1 h.2 hc

theorem upTo.fUnits_le {x c : F32} (h : upTo x c) : fUnits x ≤ fUnits c := fUnits_le_of_fLe h.1 h.2

/-- A rounded magnitude with a sign is not negative where the sign is positive or the magnitude zero. -/
theorem nonneg_fRound {s : Bool} {num den : Nat} (hd : 0 < den) (hs : s = true → num = 0) :
    nonneg (fRound s num den) := by
  have hle := roundMag_le_inf num hd
  obtain ⟨hm, hsg⟩ := magBits_fPack s (M := roundMag num den) (by omega)
  rw [nonneg_iff, fRound, hm, hsg]
  refine ⟨hle, fun h => ?_⟩
  rw [hs h, roundMag_zero hd]

/-- A result between zero and a normal number is rounded between them (R7). -/
theorem fRound_upTo {s : Bool} {num den : Nat} {c : F32} (hd : 0 < den) (hs : s = true → num = 0) (hc : fExpo c ≠ 0)
    (hn : nonneg c) (h : num ≤ fUnits c * den) : upTo (fRound s num den) c := by
  have hm := (magBits_fPack s (M := roundMag num den) (by have := roundMag_le_inf num hd; omega)).1
  refine (upTo_iff hn).mpr ⟨nonneg_fRound hd hs, ?_⟩
  rw [fRound, hm]
  exact roundMag_le hd hc h

/-! ## Operations on numbers that are not negative -/

theorem fUnits_eq_zero_of_sign {x : F32} (h : nonneg x) (hs : fSign x = true) : fUnits x = 0 := by
  have h0 := (nonneg_iff.mp h).2 hs
  have he : fExpo x = 0 := by have := magBits_eq x; omega
  exact if_pos he

/-- Where two signs differ, one number that is not negative is a zero. -/
theorem fUnits_mul_eq_zero {a b : F32} (ha : nonneg a) (hb : nonneg b) (hs : (fSign a != fSign b) = true) :
    fUnits a = 0 ∨ fUnits b = 0 := by
  cases hsa : fSign a
  · exact .inr (fUnits_eq_zero_of_sign hb (by simpa [hsa] using hs))
  · exact .inl (fUnits_eq_zero_of_sign ha hsa)

theorem not_nan_inf {x : F32} (h : isFin x = true) : isNaN x = false ∧ isInf x = false := by
  simp only [isFin, bne_iff_ne, ne_eq] at h
  simp [isNaN, isInf, h]

theorem isFin_or_isInf {x : F32} (h : nonneg x) : isFin x = true ∨ isInf x = true := by
  have hn := (fLe_iff.mp h).2.1
  by_cases hf : isFin x = true
  · exact .inl hf
  · simp only [isFin, bne_iff_ne, ne_eq, not_not] at hf
    simp only [isNaN, hf, beq_self_eq_true, Bool.true_and, bne_eq_false_iff_eq] at hn
    exact .inr (by simp [isInf, hf, hn])

/-- No NaN the model gives is finite (log 8). -/
theorem isFin_fNaN (op : Nat) (a b : F32) : isFin (fNaN op a b) = false := by
  have h : ∀ x : F32, fExpo x = (x.extractLsb' 23 8).toNat := fun x => by
    simp [fExpo, BitVec.extractLsb'_toNat, Nat.shiftRight_eq_div_pow]
  have h2 : (0x7FC00000#32 : F32).extractLsb' 23 8 = BitVec.allOnes 8 := by decide
  rw [isFin, h, fNaN, BitVec.extractLsb'_or, h2, BitVec.allOnes_or]
  rfl

theorem isFin_inf (s : Bool) : isFin (fPack s 0x7F800000) = false := by cases s <;> decide

theorem fMul_of_isFin {a b : F32} (ha : isFin a = true) (hb : isFin b = true) :
    fMul a b = fRound (fSign a != fSign b) (fUnits a * fUnits b) (2 ^ 149) := by
  simp [fMul, not_nan_inf ha, not_nan_inf hb]

/-- A finite product of numbers that are not negative is not negative. -/
theorem nonneg_fMul {a b : F32} (ha : nonneg a) (hb : nonneg b) (h : isFin (fMul a b) = true) : nonneg (fMul a b) := by
  by_cases hf : isFin a = true ∧ isFin b = true
  · rw [fMul_of_isFin hf.1 hf.2]
    exact nonneg_fRound (by decide) fun hs => Nat.mul_eq_zero.mpr (fUnits_mul_eq_zero ha hb hs)
  · exfalso
    have hi : (isInf a || isInf b) = true := by
      rcases isFin_or_isInf ha with h1 | h1
      · rcases isFin_or_isInf hb with h2 | h2
        · exact absurd ⟨h1, h2⟩ hf
        · simp [h2]
      · simp [h1]
    revert h
    unfold fMul
    dsimp only
    rw [if_pos hi]
    split
    · simp [isFin_fNaN]
    · split
      · simp [isFin_fNaN]
      · simp [isFin_inf]

theorem fMul_upTo {a b c : F32} (ha : nonneg a) (hb : nonneg b) (hfa : isFin a = true) (hfb : isFin b = true)
    (hc : fExpo c ≠ 0) (hn : nonneg c) (h : fUnits a * fUnits b ≤ fUnits c * 2 ^ 149) : upTo (fMul a b) c := by
  rw [fMul_of_isFin hfa hfb]
  exact fRound_upTo (by decide) (fun hs => Nat.mul_eq_zero.mpr (fUnits_mul_eq_zero ha hb hs)) hc hn h

theorem fDiv_upTo {a b c : F32} (ha : nonneg a) (hb : nonneg b) (hfa : isFin a = true) (hfb : isFin b = true)
    (hb0 : fUnits b ≠ 0) (hc : fExpo c ≠ 0) (hn : nonneg c) (h : fUnits a * 2 ^ 149 ≤ fUnits c * fUnits b) :
    upTo (fDiv a b) c := by
  have e : fDiv a b = fRound (fSign a != fSign b) (fUnits a * 2 ^ 149) (fUnits b) := by
    simp [fDiv, not_nan_inf hfa, not_nan_inf hfb, hb0]
  rw [e]
  refine fRound_upTo (by omega) (fun hs => ?_) hc hn h
  rw [(fUnits_mul_eq_zero ha hb hs).resolve_right hb0, Nat.zero_mul]

theorem upTo_signedZero (s : Bool) {c : F32} (hn : nonneg c) : upTo (signedZero s) c := by
  have h0 : magBits (signedZero s) = 0 := by cases s <;> rfl
  refine (upTo_iff hn).mpr ⟨nonneg_iff.mpr ⟨by omega, fun _ => h0⟩, by omega⟩

/-- A sum of finite numbers whose exact value lies between zero and `c`. -/
theorem fAdd_upTo {a b c : F32} (hfa : isFin a = true) (hfb : isFin b = true) (hc : fExpo c ≠ 0) (hn : nonneg c)
    (h0 : 0 ≤ fValue a + fValue b) (h : fValue a + fValue b ≤ fUnits c) : upTo (fAdd a b) c := by
  simp only [fAdd, not_nan_inf hfa, not_nan_inf hfb, Bool.or_false, Bool.false_eq_true, if_false]
  split
  · exact upTo_signedZero _ hn
  · refine fRound_upTo (by decide) (fun hs => ?_) hc hn (by omega)
    simp at hs
    omega

/-- A normal number is compared alike with an operand and with what the datapath reads of it (R7; log 10). -/
theorem fLe_daz {c x : F32} (hc : fExpo c ≠ 0) (hn : nonneg c) : fLe c (daz x) = true ↔ fLe c x = true := by
  by_cases he : fExpo x = 0
  · have hkc := fKey_of_nonneg hn
    have hmc := magBits_eq c
    have hd : ¬ fLe c (daz x) = true := fun h => by
      have h0 : magBits (daz x) = 0 := by rw [magBits_daz, if_pos he]
      have hk := (fLe_iff.mp h).2.2
      rw [hkc, fKey_of_nonneg (fLe_trans hn h), h0] at hk
      omega
    have hx : ¬ fLe c x = true := fun h => by
      have hk := (fLe_iff.mp h).2.2
      rw [hkc, fKey_of_nonneg (fLe_trans hn h), magBits_eq x, he] at hk
      have := fFrac_lt x
      omega
    exact iff_of_false hd hx
  · rw [daz, if_neg he]

/-- A mix that is not below the silence threshold is a number from it up (45_units_cathode.md R230). -/
theorem fLe_of_sounding {m : F32} (hn : isNaN m = false) (h : ¬ dLt m mixSilence = true) : fLe mixSilence m = true :=
  (fLe_daz (by decide) (by decide)).mp (fLe_of_not_fLt (by rwa [isNaN_daz]) (by decide) h)

/-! ## Oscillator phases (44_primitives.md R210) -/

/-- A phase is a number in [0, 1) (10_state.md R48). -/
def phaseOk (p : F32) : Prop := fLe k0 p = true ∧ fLt p k1 = true

theorem phaseOk_zero : phaseOk 0 := by unfold phaseOk; decide

/-- A rate R32 allows. -/
def rateOk (sr : F32) : Prop := fLe Config.fsMin sr = true ∧ fLe sr Config.fsMax = true

theorem rateOk.nonneg {sr : F32} (h : rateOk sr) : nonneg sr := fLe_trans (by decide) h.1

/-- The step of a phase is at most 1/8, for a rate up to 1000 Hz. -/
theorem phaseStep_upTo {rate sr : F32} (hr : upTo rate 0x447A0000#32) (hsr : rateOk sr) :
    upTo (fDiv rate sr) 0x3E000000#32 := by
  have hlo := fUnits_le_of_fLe (a := Config.fsMin) (by decide) hsr.1
  have hhi := hr.fUnits_le
  have e1 : fUnits Config.fsMin = 8000 * 2 ^ 149 := by decide +kernel
  have e2 : fUnits 0x447A0000#32 = 1000 * 2 ^ 149 := by decide +kernel
  have e3 : fUnits 0x3E000000#32 = 2 ^ 146 := by decide +kernel
  refine fDiv_upTo hr.1 hsr.nonneg (hr.isFin (by decide)) (upTo.isFin ⟨hsr.nonneg, hsr.2⟩ (by decide)) (by omega)
    (by decide) (by decide) ?_
  rw [e3]
  omega

/-- LFO.ADVANCE keeps a phase in [0, 1) (R210). -/
theorem phaseOk_lfoRule {p rate sr : F32} (hp : phaseOk p) (hr : upTo rate 0x447A0000#32) (hsr : rateOk sr) :
    phaseOk (lfoRule p rate sr) := by
  have e1 : fUnits k1 = 2 ^ 149 := by decide +kernel
  have e2 : fUnits 0x3E000000#32 = 2 ^ 146 := by decide +kernel
  have e3 : fUnits 0x3F900000#32 = 2 ^ 149 + 2 ^ 146 := by decide +kernel
  have e4 : fValue (fNeg k1) = -2 ^ 149 := by decide +kernel
  have hc := phaseStep_upTo hr hsr
  have hp1 : upTo p k1 := ⟨hp.1, fLe_of_fLt hp.2⟩
  have hpv := fUnits_of_nonneg hp1.1
  have hcv := fUnits_of_nonneg hc.1
  have hpu := hp1.fUnits_le
  have hcu := hc.fUnits_le
  have hq : upTo (fAdd p (fDiv rate sr)) 0x3F900000#32 :=
    fAdd_upTo (hp1.isFin (by decide)) (hc.isFin (by decide)) (by decide) (by decide) (by omega) (by omega)
  have hqv := fUnits_of_nonneg hq.1
  have hqu := hq.fUnits_le
  unfold lfoRule
  dsimp only
  split
  · next hge =>
    have hge' : fLe k1 (fAdd p (fDiv rate sr)) = true :=
      (fLe_daz (by decide) (by decide)).mp hge
    have h1 := fUnits_le_of_fLe (by decide) hge'
    have hd : upTo (fSub (fAdd p (fDiv rate sr)) k1) 0x3E000000#32 :=
      fAdd_upTo (hq.isFin (by decide)) (by decide) (by decide) (by decide) (by omega) (by omega)
    exact ⟨hd.1, fLt_of_fLe_of_fLt hd.2 (by decide)⟩
  · next hlt =>
    refine ⟨hq.1, ?_⟩
    have hn : isNaN (fAdd p (fDiv rate sr)) = false := (fLe_iff.mp hq.1).2.1
    have hlt' : ¬ fLe k1 (fAdd p (fDiv rate sr)) = true := fun h =>
      hlt ((fLe_daz (by decide) (by decide)).mpr h)
    simpa [fLe_iff, fLt_iff, hn, show isNaN k1 = false by decide] using hlt'

/-- The rate of Shred for a mix that sounds and stays below 8/7 (47_units_steel.md R267). -/
theorem shredRate_upTo {m : F32} (hlo : ¬ dLt m mixSilence = true) (hhi : fLt m 0x3F924924#32 = true) :
    upTo (fAdd k200 (fMul k300 m)) 0x447A0000#32 := by
  have hm : upTo m 0x3F924924#32 :=
    ⟨fLe_trans (by decide) (fLe_of_sounding (fLt_iff.mp hhi).1 hlo), fLe_of_fLt hhi⟩
  have e1 : fUnits 0x3F924924#32 ≤ 2 * 2 ^ 149 := by decide +kernel
  have e2 : fUnits k300 = 300 * 2 ^ 149 := by decide +kernel
  have e3 : fUnits 0x44160000#32 = 600 * 2 ^ 149 := by decide +kernel
  have e4 : fUnits 0x447A0000#32 = 1000 * 2 ^ 149 := by decide +kernel
  have e5 : fValue k200 = 200 * 2 ^ 149 := by decide +kernel
  have hmu := hm.fUnits_le
  have hp : upTo (fMul k300 m) 0x44160000#32 :=
    fMul_upTo (by decide) hm.1 (by decide) (hm.isFin (by decide)) (by decide) (by decide)
      (by rw [e2, e3]; omega)
  have hpv := fUnits_of_nonneg hp.1
  have hpu := hp.fUnits_le
  exact fAdd_upTo (by decide) (hp.isFin (by decide)) (by decide) (by decide) (by omega) (by omega)

/-- The hold of Grind is at most 8 for a mix that sounds and stays below 8/7 (R268; log 31). -/
theorem grindHold_le {m : F32} (hlo : ¬ dLt m mixSilence = true) (hhi : fLt m 0x3F924924#32 = true) :
    floorNat (fMul m k7) ≤ 7 := by
  have hm0 : nonneg m := fLe_trans (by decide) (fLe_of_sounding (fLt_iff.mp hhi).1 hlo)
  have hm : upTo m 0x3F924923#32 := by
    refine (upTo_iff (by decide)).mpr ⟨hm0, ?_⟩
    have hk := (fLt_iff.mp hhi).2.2
    rw [fKey_of_nonneg hm0, fKey_of_nonneg (by decide)] at hk
    have e : magBits 0x3F924924#32 = magBits 0x3F924923#32 + 1 := by decide
    omega
  have e1 : fUnits 0x3F924923#32 * fUnits k7 ≤ fUnits 0x40FFFFFF#32 * 2 ^ 149 := by decide +kernel
  have e2 : fUnits 0x40FFFFFF#32 < 8 * 2 ^ 149 := by decide +kernel
  have hp : upTo (fMul m k7) 0x40FFFFFF#32 :=
    fMul_upTo hm0 (by decide) (hm.isFin (by decide)) (by decide) (by decide) (by decide)
      ((Nat.mul_le_mul_right _ hm.fUnits_le).trans e1)
  have hpu := hp.fUnits_le
  have hpf : (isFin (fMul m k7) && decide (0 ≤ fValue (fMul m k7))) = true := by
    rw [fUnits_of_nonneg hp.1]
    simp [hp.isFin (by decide)]
  rw [floorNat, if_pos hpf]
  omega

/-! ## The values a command writes -/

theorem nonneg_meterDecay : nonneg meterDecay := by
  unfold meterDecay within
  split
  · next h => exact (Bool.and_eq_true_iff.mp h).1
  · decide

/-- SETPARAM stores a legal value (10_state.md R33, 40_host_commands.md R136). -/
theorem legalWord_legalise (h : HolderId) (data : Word) : legalWord h (legalise h data) := by
  have hclamp : ∀ x : Word, x = (if isNaN data then 0 else if fLt data k0 then k0 else if fLt k1 data then k1 else data) →
      fLe k0 x = true ∧ fLe x k1 = true := by
    rintro x rfl
    split
    · decide
    next hn =>
      have hn' : isNaN data = false := by simpa using hn
      split
      · decide
      next h0 =>
        split
        · decide
        next h1 => exact ⟨fLe_of_not_fLt hn' (by decide) h0, fLe_of_not_fLt (by decide) hn' h1⟩
  cases h
  case bypass =>
    simp only [legalise, legalWord]
    split <;> decide
  case preampType =>
    simp only [legalise, legalWord]
    split
    · decide
    · omega
  all_goals exact hclamp _ rfl

/-- The effective rate as R32 says it (log 10). -/
theorem effectiveRate_eq_rateRule (w : Word) : effectiveRate w = rateRule w := by
  unfold effectiveRate rateRule
  split
  · next h =>
    have hd : daz w = w := by
      refine if_neg fun he => ?_
      have hk := (fLt_iff.mp h).2.2
      have hs : daz w = signedZero (fSign w) := if_pos he
      rw [hs] at hk
      revert hk
      cases fSign w <;> decide
    unfold dClamp dLt
    rw [hd]
    rfl
  · decide

/-- The effective rate is one R32 allows. -/
theorem rateOk_effectiveRate (w : Word) : rateOk (effectiveRate w) := by
  have key : ∀ v, isNaN v = false → rateOk (dClamp v Config.fsMin Config.fsMax) := fun v hv => by
    unfold dClamp
    split
    · unfold rateOk; decide
    next h0 =>
      split
      · unfold rateOk; decide
      next h1 =>
        have hv' : isNaN (daz v) = false := by rwa [isNaN_daz]
        exact ⟨fLe_of_not_fLt hv' (by decide) h0, fLe_of_not_fLt (by decide) hv' h1⟩
  refine key _ ?_
  split
  · next h => rw [← isNaN_daz]; exact (fLt_iff.mp h).2.1
  · decide

/-- The effective block length as R32 says it. -/
theorem effectiveBlock_eq_blockRule (w : Word) : effectiveBlock w = blockRule w := by
  unfold effectiveBlock blockRule Config.maxblkMax
  split
  · omega
  · split <;> omega

theorem effectiveBlock_mem (w : Word) : 1 ≤ effectiveBlock w ∧ effectiveBlock w ≤ 8192 := by
  rw [effectiveBlock_eq_blockRule, blockRule]
  omega

end Sys2Proof.Proofs
end

section
/-! What one step can do, once, for the proofs of the invariants: the parts of a block, the parts of a command, and one
lemma that carries a property over a step from its parts. -/

namespace Sys2Proof.Proofs

open Sys2Proof Sys2Proof.Machine Sys2Proof.Safety

/-! ## The frames of a unit's block -/

/-- A frame the loop of a unit reaches without leaving the buffer: its mix is silent, or the frame exists. -/
def frameReached (u : UnitId) (s : State) (i : Nat) : Prop :=
  dLt (nextRule (s.smoother (.mix u))).1 mixSilence = true ∨ i < Config.maxblkMax

/-- A sequence keeps inside the buffer exactly if its parts do. -/
theorem range_bind {α β : Type} {c : Calc α} {f : α → Calc β} (hf : ∀ a, Writer (f a))
    (h : (marksOf (c >>= f)).range = false) :
    (marksOf c).range = false ∧ (marksOf (f (valueOf c))).range = false := by
  rw [marksOf_bind c hf] at h
  simpa [Marks.join] using h

/-- A read that keeps inside the buffer reads one of its frames. -/
theorem lt_of_bufRead_range {b : SampleBuffer} {ch : Channel} {i : Nat} (h : (marksOf (bufRead b ch i)).range = false) :
    i < Config.maxblkMax := by
  by_contra hi
  rw [marksOf_bufRead_range (Nat.not_lt.mp hi)] at h
  cases h

/-- Induction over the loop of a unit that keeps inside the buffer, on the state that `put` makes of the unit's registers
and the buffer. -/
theorem unitFrames_induct {U : Type} {mixNext : U → Calc (F32 × U)}
    {sample : U → F32 → F32 → F32 → Calc ((F32 × F32) × U)} (u : UnitId) (put : U → SampleBuffer → State)
    (hm : ∀ x, Writer (mixNext x)) (hs : ∀ x l r m, Writer (sample x l r m))
    (hq : ∀ x b, (nextRule ((put x b).smoother (.mix u))).1 = (valueOf (mixNext x)).1)
    (hF : ∀ x b i, unitFrame u (put x b) i =
      if dLt (valueOf (mixNext x)).1 mixSilence then put (valueOf (mixNext x)).2 b
      else
        let y := valueOf (sample (valueOf (mixNext x)).2 ((b.get? .left i).getD 0) ((b.get? .right i).getD 0)
          (valueOf (mixNext x)).1)
        put y.2 (writeFrame b i y.1.1 y.1.2))
    {P : State → Prop} (hP : ∀ t i, P t → frameReached u t i → P (unitFrame u t i))
    (k i : Nat) (x : U) (b : SampleBuffer) (hr : (marksOf (unitFrames mixNext sample k i x b)).range = false)
    (h : P (put x b)) :
    P (put (valueOf (unitFrames mixNext sample k i x b)).1 (valueOf (unitFrames mixNext sample k i x b)).2) := by
  induction k generalizing i x b with
  | zero => exact h
  | succ k ih =>
    have hw := fun k i x b => writer_unitFrames hm hs k i x b
    have hwt : ∀ x l r m j b, Writer (sample x l r m >>= fun y => unitFrames mixNext sample k j y.2
        (writeFrame b i y.1.1 y.1.2)) := fun x l r m j b => Writer.bind (hs _ _ _ _) fun _ => hw _ _ _ _
    rw [unitFrames] at hr
    have hr2 := (range_bind (fun y => by
      obtain ⟨m, x1⟩ := y
      dsimp only
      split
      · exact hw _ _ _ _
      · exact Writer.bind (writer_bufRead _ _ _) fun _ => Writer.bind (writer_bufRead _ _ _) fun _ => hwt _ _ _ _ _ _) hr).2
    change (marksOf (if dLt (valueOf (mixNext x)).1 mixSilence = true then _ else _)).range = false at hr2
    have hstep := hP _ i h
    rw [frameReached, hq, hF] at hstep
    rw [valueOf_unitFrames_succ hm hs]
    by_cases hsil : dLt (valueOf (mixNext x)).1 mixSilence = true
    · rw [if_pos hsil] at hr2 hstep ⊢
      exact ih _ _ _ hr2 (hstep (.inl hsil))
    · rw [if_neg hsil] at hr2 hstep ⊢
      obtain ⟨hl, hr3⟩ := range_bind (fun _ => Writer.bind (writer_bufRead _ _ _) fun _ => hwt _ _ _ _ _ _) hr2
      obtain ⟨_, hr4⟩ := range_bind (fun _ => hwt _ _ _ _ _ _) hr3
      obtain ⟨_, hr5⟩ := range_bind (fun _ => hw _ _ _ _) hr4
      have hi := lt_of_bufRead_range hl
      rw [valueOf_bufRead_getD _ _ hi, valueOf_bufRead_getD _ _ hi] at hr5 ⊢
      exact ih _ _ _ hr5 (hstep (.inr hi))

/-- The same for the loop with the state put together at its end, as a unit's code runs it. -/
theorem unitLoop_induct {U : Type} {mixNext : U → Calc (F32 × U)}
    {sample : U → F32 → F32 → F32 → Calc ((F32 × F32) × U)} (u : UnitId) (put : U → SampleBuffer → State)
    (hm : ∀ x, Writer (mixNext x)) (hs : ∀ x l r m, Writer (sample x l r m))
    (hq : ∀ x b, (nextRule ((put x b).smoother (.mix u))).1 = (valueOf (mixNext x)).1)
    (hF : ∀ x b i, unitFrame u (put x b) i =
      if dLt (valueOf (mixNext x)).1 mixSilence then put (valueOf (mixNext x)).2 b
      else
        let y := valueOf (sample (valueOf (mixNext x)).2 ((b.get? .left i).getD 0) ((b.get? .right i).getD 0)
          (valueOf (mixNext x)).1)
        put y.2 (writeFrame b i y.1.1 y.1.2))
    {P : State → Prop} (hP : ∀ t i, P t → frameReached u t i → P (unitFrame u t i))
    {n : Nat} {x : U} {b : SampleBuffer}
    (hr : (marksOf (unitFrames mixNext sample n 0 x b >>= fun y => (pure (put y.1 y.2) : Calc State))).range = false)
    (h : P (put x b)) :
    P (valueOf (unitFrames mixNext sample n 0 x b >>= fun y => (pure (put y.1 y.2) : Calc State))) := by
  have hw : ∀ y : U × SampleBuffer, Writer (pure (put y.1 y.2) : Calc State) := fun _ => Writer.pure _
  rw [valueOf_bind _ hw]
  exact unitFrames_induct u put hm hs hq hF hP n 0 x b (range_bind hw hr).1 h

/-- Induction over a unit's block that keeps inside the buffer (45_units_cathode.md R230). -/
theorem unitProcess_induct {u : UnitId} {n : Nat} {s : State} {P : State → Prop}
    (hP : ∀ t i, P t → frameReached u t i → P (unitFrame u t i))
    (hr : (marksOf (unitProcess u n s)).range = false) (h : P (blockStarted u s)) : P (valueOf (unitProcess u n s)) := by
  cases u
  case ember =>
    exact unitLoop_induct .ember (fun x b => { s with units := { s.units with ember := x }, buf := b }) writer_emberMix
      writer_emberSample (fun x b => by rw [valueOf_emberMix]; rfl)
      (fun x b i => by rw [valueOf_emberMix, valueOf_emberSample]; rfl) hP hr h
  case velvet =>
    have hw : ∀ x, Writer (unitFrames Velvet.mixNext Velvet.sample n 0 x s.buf >>= fun y =>
        (pure { s with units := { s.units with velvet := y.1 }, buf := y.2 } : Calc State)) := fun _ =>
      Writer.bind (writer_unitFrames writer_velvetMix writer_velvetSample _ _ _ _) fun _ => Writer.pure _
    rw [unitProcess, Velvet.run, bind_assoc] at hr ⊢
    rw [valueOf_bind _ hw]
    exact unitLoop_induct .velvet (fun x b => { s with units := { s.units with velvet := x }, buf := b }) writer_velvetMix
      writer_velvetSample (fun x b => by rw [valueOf_velvetMix]; rfl)
      (fun x b i => by rw [valueOf_velvetMix, valueOf_velvetSample]; rfl) hP (range_bind hw hr).2 h
  case drift =>
    exact unitLoop_induct .drift (fun x b => { s with units := { s.units with drift := x }, buf := b }) writer_driftMix
      (writer_driftSample s.sr) (fun x b => by rw [valueOf_driftMix]; rfl)
      (fun x b i => by rw [valueOf_driftMix, valueOf_driftSample]; rfl) hP hr h
  case echo =>
    exact unitLoop_induct .echo (fun x b => { s with units := { s.units with echo := x }, buf := b }) writer_echoMix
      (writer_echoSample s.sr) (fun x b => by rw [valueOf_echoMix]; rfl)
      (fun x b i => by rw [valueOf_echoMix, valueOf_echoSample]; rfl) hP hr h
  case haze =>
    exact unitLoop_induct .haze (fun x b => { s with units := { s.units with haze := x }, buf := b }) writer_hazeMix
      writer_hazeSample (fun x b => by rw [valueOf_hazeMix]; rfl)
      (fun x b i => by rw [valueOf_hazeMix, valueOf_hazeSample]; rfl) hP hr h
  case fracture =>
    exact unitLoop_induct .fracture (fun x b => { s with units := { s.units with fracture := x }, buf := b }) writer_fractureMix
      writer_fractureSample (fun x b => by rw [valueOf_fractureMix]; rfl)
      (fun x b i => by rw [valueOf_fractureMix, valueOf_fractureSample]; rfl) hP hr h
  case prism =>
    exact unitLoop_induct .prism (fun x b => { s with units := { s.units with prism := x }, buf := b }) writer_prismMix
      writer_prismSample (fun x b => by rw [valueOf_prismMix]; rfl)
      (fun x b i => by rw [valueOf_prismMix, valueOf_prismSample]; rfl) hP hr h
  case phase =>
    exact unitLoop_induct .phase (fun x b => { s with units := { s.units with phase := x }, buf := b }) writer_phaseMix
      (writer_phaseSample s.sr) (fun x b => by rw [valueOf_phaseMix]; rfl)
      (fun x b i => by rw [valueOf_phaseMix, valueOf_phaseSample]; rfl) hP hr h
  case cascade =>
    exact unitLoop_induct .cascade (fun x b => { s with units := { s.units with cascade := x }, buf := b }) writer_cascadeMix
      writer_cascadeSample (fun x b => by rw [valueOf_cascadeMix]; rfl)
      (fun x b i => by rw [valueOf_cascadeMix, valueOf_cascadeSample]; rfl) hP hr h
  case glisten =>
    exact unitLoop_induct .glisten (fun x b => { s with units := { s.units with glisten := x }, buf := b }) writer_glistenMix
      writer_glistenSample (fun x b => by rw [valueOf_glistenMix]; rfl)
      (fun x b i => by rw [valueOf_glistenMix, valueOf_glistenSample]; rfl) hP hr h
  case scorch =>
    exact unitLoop_induct .scorch (fun x b => { s with units := { s.units with scorch := x }, buf := b }) writer_scorchMix
      writer_scorchSample (fun x b => by rw [valueOf_scorchMix]; rfl)
      (fun x b i => by rw [valueOf_scorchMix, valueOf_scorchSample]; rfl) hP hr h
  case snarl =>
    have hw : ∀ x, Writer (unitFrames Snarl.mixNext Snarl.sample n 0 x s.buf >>= fun y =>
        (pure { s with units := { s.units with snarl := y.1 }, buf := y.2 } : Calc State)) := fun _ =>
      Writer.bind (writer_unitFrames writer_snarlMix writer_snarlSample _ _ _ _) fun _ => Writer.pure _
    rw [unitProcess, Snarl.run, bind_assoc] at hr ⊢
    rw [valueOf_bind _ hw]
    exact unitLoop_induct .snarl (fun x b => { s with units := { s.units with snarl := x }, buf := b }) writer_snarlMix
      writer_snarlSample (fun x b => by rw [valueOf_snarlMix]; rfl)
      (fun x b i => by rw [valueOf_snarlMix, valueOf_snarlSample]; rfl) hP (range_bind hw hr).2 h
  case shred =>
    exact unitLoop_induct .shred (fun x b => { s with units := { s.units with shred := x }, buf := b }) writer_shredMix
      (writer_shredSample s.sr) (fun x b => by rw [valueOf_shredMix]; rfl)
      (fun x b i => by rw [valueOf_shredMix, valueOf_shredSample]; rfl) hP hr h
  case grind =>
    exact unitLoop_induct .grind (fun x b => { s with units := { s.units with grind := x }, buf := b }) writer_grindMix
      writer_grindSample (fun x b => by rw [valueOf_grindMix]; rfl)
      (fun x b i => by rw [valueOf_grindMix, valueOf_grindSample]; rfl) hP hr h
  case rust =>
    exact unitLoop_induct .rust (fun x b => { s with units := { s.units with rust := x }, buf := b }) writer_rustMix
      writer_rustSample (fun x b => by rw [valueOf_rustMix]; rfl)
      (fun x b i => by rw [valueOf_rustMix, valueOf_rustSample]; rfl) hP hr h

/-! ## The frames of the preamp's block -/

/-- Induction over a block of the preamp that keeps inside the buffer (48_preamp.md R280). -/
theorem preampFrames_induct (s : State) {P : State → Prop}
    (hP : ∀ t i, P t → i < Config.maxblkMax → P (preampFrame t i)) (k i : Nat) (p : Preamp) (b : SampleBuffer)
    (hr : (marksOf (preampFrames s.sr k i p b)).range = false) (h : P { s with pre := p, buf := b }) :
    P { s with pre := (valueOf (preampFrames s.sr k i p b)).1, buf := (valueOf (preampFrames s.sr k i p b)).2 } := by
  induction k generalizing i p b with
  | zero => exact h
  | succ k ih =>
    have hw := fun y : (F32 × F32) × Preamp =>
      writer_preampFrames s.sr k (i + 1) y.2 (writeFrame b i y.1.1 y.1.2)
    have hwf := fun l r => Writer.bind (writer_preampFrame s.sr p l r) hw
    rw [preampFrames] at hr
    obtain ⟨hl, hr2⟩ := range_bind (fun _ => Writer.bind (writer_bufRead _ _ _) fun _ => hwf _ _) hr
    obtain ⟨_, hr3⟩ := range_bind (fun _ => hwf _ _) hr2
    obtain ⟨_, hr4⟩ := range_bind hw hr3
    have hi := lt_of_bufRead_range hl
    have hstep := hP _ i h hi
    rw [valueOf_preampFrames_succ]
    rw [valueOf_bufRead_getD _ _ hi, valueOf_bufRead_getD _ _ hi, valueOf_preampFrame] at hr4 ⊢
    exact ih _ _ _ hr4 hstep

/-- A property kept by the frames inside the buffer is kept by a preamp block that stays inside it (R280). -/
theorem preamp_induct {n : Nat} {s : State} {P : State → Prop}
    (hP : ∀ t i, P t → i < Config.maxblkMax → P (preampFrame t i)) (hr : (marksOf (preamp n s)).range = false)
    (h : P s) : P (valueOf (preamp n s)) := by
  have hw : ∀ y : Preamp × SampleBuffer, Writer (pure { s with pre := y.1, buf := y.2 } : Calc State) :=
    fun _ => Writer.pure _
  rw [preamp, valueOf_bind _ hw]
  exact preampFrames_induct s hP n 0 _ _ (range_bind hw hr).1 h

end Sys2Proof.Proofs
end

section
/-! What a command and a step can do, once: the parts of PROCESS, the changes a command can make, and the lemma that
carries a property over a step from these parts. -/

namespace Sys2Proof.Proofs

open Sys2Proof Sys2Proof.Machine Sys2Proof.Safety

/-! ## The blocks of PROCESS -/

/-- A property that every frame of a block keeps, and every meter update from a peak that is not negative. -/
structure KeptByFrames (P : State → Prop) : Prop where
  start : ∀ s u, P s → P (blockStarted u s)
  unit : ∀ s u i, P s → frameReached u s i → P (unitFrame u s i)
  preamp : ∀ s i, P s → i < Config.maxblkMax → P (preampFrame s i)
  meter : ∀ s k pk, P s → nonneg pk → isFin (fMul (s.meter k) meterDecay) = true →
    P (s.setMeter k (meterRule (s.meter k) pk))

/-- The marks of a sequence are clean exactly if those of its parts are. -/
theorem clean_bind {α β : Type} {c : Calc α} {f : α → Calc β} (hf : ∀ a, Writer (f a))
    (h : marksOf (c >>= f) = {}) : marksOf c = {} ∧ marksOf (f (valueOf c)) = {} := by
  rw [marksOf_bind c hf] at h
  exact Marks.join_eq_empty.mp h

theorem range_of_clean {α : Type} {c : Calc α} (h : marksOf c = {}) : (marksOf c).range = false := by rw [h]

/-- A read of the buffer without a mark gives a finite value. -/
theorem isFin_of_bufRead_clean {b : SampleBuffer} {ch : Channel} {i : Nat} (h : marksOf (bufRead b ch i) = {}) :
    isFin (valueOf (bufRead b ch i)) = true := by
  revert h
  unfold bufRead marksOf valueOf StateT.run
  dsimp only
  split
  · simp
  · split <;> simp

/-- The peaks of a block whose samples are finite are not negative (40_host_commands.md R135). -/
theorem peaks_nonneg (b : SampleBuffer) (k i : Nat) (pk : F32 × F32) (hc : marksOf (peaks b k i pk) = {})
    (h1 : nonneg pk.1) (h2 : nonneg pk.2) :
    nonneg (valueOf (peaks b k i pk)).1 ∧ nonneg (valueOf (peaks b k i pk)).2 := by
  induction k generalizing i pk with
  | zero => exact ⟨h1, h2⟩
  | succ k ih =>
    have hw := fun l r => writer_peaks b k (i + 1) (dMax pk.1 (dAbs l), dMax pk.2 (dAbs r))
    have hwr := fun l => Writer.bind (writer_bufRead b .right i) (hw l)
    rw [peaks] at hc ⊢
    obtain ⟨hl, hc2⟩ := clean_bind hwr hc
    obtain ⟨hr, hc3⟩ := clean_bind (hw _) hc2
    rw [valueOf_bind _ hwr, valueOf_bind _ (hw _)]
    exact ih _ _ hc3 (nonneg_dMax h1 (nonneg_dAbs (not_nan_inf (isFin_of_bufRead_clean hl)).1))
      (nonneg_dMax h2 (nonneg_dAbs (not_nan_inf (isFin_of_bufRead_clean hr)).1))

theorem KeptByFrames.unitProcess {P : State → Prop} (K : KeptByFrames P) {u : UnitId} {n : Nat} {s : State}
    (hr : (marksOf (unitProcess u n s)).range = false) (h : P s) : P (valueOf (unitProcess u n s)) :=
  unitProcess_induct (fun t i ht hi => K.unit t u i ht hi) hr (K.start s u h)

theorem KeptByFrames.runChain {P : State → Prop} (K : KeptByFrames P) {n : Nat} {s : State}
    (hc : marksOf (runChain n s) = {}) (h : P s) : P (valueOf (runChain n s)) := by
  have w1 := fun c t => writer_unitProcess (chain s.family c) n t
  have w2 := fun c t => Writer.bind (w1 c t) (w1 .reverb)
  have w3 := fun c t => Writer.bind (w1 c t) (w2 .delay)
  have w4 := fun c t => Writer.bind (w1 c t) (w3 .modulation)
  rw [Machine.runChain] at hc ⊢
  obtain ⟨c1, hc⟩ := clean_bind (w4 .filter) hc
  obtain ⟨c2, hc⟩ := clean_bind (w3 .modulation) hc
  obtain ⟨c3, hc⟩ := clean_bind (w2 .delay) hc
  obtain ⟨c4, c5⟩ := clean_bind (w1 .reverb) hc
  rw [valueOf_bind _ (w4 .filter), valueOf_bind _ (w3 .modulation), valueOf_bind _ (w2 .delay), valueOf_bind _ (w1 .reverb)]
  exact K.unitProcess (range_of_clean c5) <| K.unitProcess (range_of_clean c4) <| K.unitProcess (range_of_clean c3) <|
    K.unitProcess (range_of_clean c2) <| K.unitProcess (range_of_clean c1) h

theorem KeptByFrames.meterUpdate {P : State → Prop} (K : KeptByFrames P) {k : MeterId} {pk : F32} {s : State}
    (hc : marksOf (meterUpdate k pk s) = {}) (hpk : nonneg pk) (h : P s) : P (valueOf (meterUpdate k pk s)) := by
  have hw : ∀ v, Writer (pure (s.setMeter k v) : Calc State) := fun _ => Writer.pure _
  have hw' : ∀ d, Writer (pure (dMax pk d) : Calc F32) := fun _ => Writer.pure _
  obtain ⟨hm, -⟩ := clean_bind hw hc
  obtain ⟨hm, -⟩ := clean_bind hw' hm
  exact K.meter s k pk h hpk (by simpa using hm)

/-- The four meter updates keep what one keeps (49_chain_and_meter.md R294). -/
theorem KeptByFrames.meterBlock {P : State → Prop} (K : KeptByFrames P) {pin pout : F32 × F32} {s : State}
    (hc : marksOf (meterBlock pin pout s) = {}) (hin : nonneg pin.1 ∧ nonneg pin.2) (hout : nonneg pout.1 ∧ nonneg pout.2)
    (h : P s) : P (valueOf (meterBlock pin pout s)) := by
  have w1 := fun k pk t => writer_meterUpdate k pk t
  have w2 := fun t => Writer.bind (w1 .outL pout.1 t) (w1 .outR pout.2)
  have w3 := fun t => Writer.bind (w1 .inR pin.2 t) w2
  unfold Machine.meterBlock at hc ⊢
  obtain ⟨m1, hc⟩ := clean_bind w3 hc
  obtain ⟨m2, hc⟩ := clean_bind w2 hc
  obtain ⟨m3, m4⟩ := clean_bind (w1 .outR pout.2) hc
  rw [valueOf_bind _ w3, valueOf_bind _ w2, valueOf_bind _ (w1 .outR pout.2)]
  exact K.meterUpdate m4 hout.2 <| K.meterUpdate m3 hout.1 <| K.meterUpdate m2 hin.2 <| K.meterUpdate m1 hin.1 h

/-- The part of PROCESS that is not bypassed keeps what its frames and meter updates keep (R135). -/
theorem KeptByFrames.processFrames {P : State → Prop} (K : KeptByFrames P) {n : Nat} {s : State}
    (hc : marksOf (processFrames n s) = {}) (h : P s) : P (valueOf (processFrames n s)) := by
  have wb := fun i t o => writer_meterBlock i o t
  have wo := fun i t => Writer.bind (writer_peaks t.buf n 0 (k0, k0)) (wb i t)
  have wc := fun i t => Writer.bind (writer_runChain n t) (wo i)
  have wp := fun i => Writer.bind (writer_preamp n s) (wc i)
  rw [Machine.processFrames] at hc ⊢
  obtain ⟨ci, hc⟩ := clean_bind wp hc
  obtain ⟨cp, hc⟩ := clean_bind (wc _) hc
  obtain ⟨cc, hc⟩ := clean_bind (wo _) hc
  obtain ⟨co, hc⟩ := clean_bind (wb _ _) hc
  rw [valueOf_bind _ wp, valueOf_bind _ (wc _), valueOf_bind _ (wo _), valueOf_bind _ (wb _ _)]
  exact K.meterBlock hc (peaks_nonneg _ _ _ _ ci (by decide) (by decide))
    (peaks_nonneg _ _ _ _ co (by decide) (by decide))
    (K.runChain cc (preamp_induct (fun t i ht hi => K.preamp t i ht hi) (range_of_clean cp) h))

/-! ## The latch -/

/-- SV.SETTARGET on one smoother of the state (41_smoother.md R162). -/
def retargeted (v : SmootherId) (x : F32) (s : State) : State := s.setSmoother v (settargetRule (s.smoother v) x)

/-- The state after APPLY_PARAMS (40_host_commands.md R142). -/
def applied (s : State) : State :=
  let s3 := retargeted .out (gainRule s.holders.output) (retargeted .tone s.holders.tone (retargeted .drive s.holders.drive s))
  allUnits.foldl (fun t u => retargeted (.mix u) (s.holders.get (.mix u)) t)
    { s3 with family := familyOf s.holders.preampType }

theorem valueOf_retargetMixes (h : Holders) (us : List UnitId) (s : State) :
    valueOf (retargetMixes h us s) = us.foldl (fun t u => retargeted (.mix u) (h.get (.mix u)) t) s := by
  induction us generalizing s with
  | nil => rfl
  | cons u us ih => rw [retargetMixes, valueOf_bind _ fun _ => writer_retargetMixes _ _ _, ih, valueOf_retarget]; rfl

theorem valueOf_applyParams (s : State) : valueOf (applyParams s) = applied s := by
  have w1 := fun t : State => writer_retargetMixes s.holders allUnits { t with family := familyOf s.holders.preampType }
  have w2 := fun t g => Writer.bind (writer_retarget .out g t) w1
  have w3 := fun t => Writer.bind (writer_db2lin s.holders.output) (w2 t)
  have w4 := fun t => Writer.bind (writer_retarget .tone s.holders.tone t) w3
  unfold applyParams
  dsimp only
  rw [valueOf_bind _ w4, valueOf_bind _ w3, valueOf_bind _ (w2 _), valueOf_bind _ w1, valueOf_retargetMixes]
  simp only [valueOf_retarget, valueOf_db2lin]
  rfl

theorem smoother_retargeted (v w : SmootherId) (x : F32) (s : State) :
    (retargeted v x s).smoother w = if w = v then settargetRule (s.smoother v) x else s.smoother w := by
  split
  · next h => rw [h, retargeted, State.setSmoother_smoother]
  · next h => exact smoother_setSmoother_ne s _ h

/-- The mixes after the listed units took their holders' values. -/
theorem smoother_foldl_retargeted (h : Holders) (us : List UnitId) (hus : us.Nodup) (s : State) (v : SmootherId) :
    (us.foldl (fun t u => retargeted (.mix u) (h.get (.mix u)) t) s).smoother v =
      if v ∈ us.map SmootherId.mix then settargetRule (s.smoother v) (latchTarget h v) else s.smoother v := by
  induction us generalizing s with
  | nil => rfl
  | cons u us ih =>
    obtain ⟨hu, hus⟩ := List.nodup_cons.mp hus
    rw [List.foldl_cons, ih hus, smoother_retargeted]
    by_cases hv : v = .mix u
    · subst hv
      simp [hu, latchTarget]
    · simp [hv]

/-- What APPLY_PARAMS makes of each smoother (R142). -/
theorem smoother_applied (s : State) (v : SmootherId) :
    (applied s).smoother v = settargetRule (s.smoother v) (latchTarget s.holders v) := by
  unfold applied
  rw [smoother_foldl_retargeted _ _ (by decide)]
  have hf : ∀ (t : State) f, { t with family := f }.smoother v = t.smoother v := fun t f => by
    cases v with
    | mix u => cases u <;> rfl
    | _ => rfl
  cases v with
  | mix u =>
    have hu : u ∈ allUnits := by cases u <;> decide
    simp [hf, smoother_retargeted, hu]
  | _ => simp [hf, smoother_retargeted, latchTarget]

/-- The latch of PROCESS is APPLY_PARAMS, with RESET_STATE where the bypass value changed (R135). -/
theorem latched_eq (s : State) :
    latched s =
      if latchedBypass s != (applied s).bypassPrev then
        { resetState (applied s) with bypassPrev := latchedBypass s }
      else applied s := by
  unfold latched processLatch
  rw [valueOf_bind _ fun _ => Writer.pure _, valueOf_pure, valueOf_applyParams]

/-- PROCESS after its checks, while bypassed (R135, 49_chain_and_meter.md R295). -/
theorem processBlock_bypassed {s : State} (n : Nat) (hb : latchedBypass s = true) :
    processBlock n s = processLatch s >>= fun t => pure (t.respond 0) := by
  simp [processBlock, hb]

/-- PROCESS after its checks, not bypassed (R135). -/
theorem processBlock_sounding {s : State} (n : Nat) (hb : ¬ latchedBypass s = true) :
    processBlock n s = processLatch s >>= fun t => processFrames n t >>= fun u => pure (u.respond 0) := by
  simp [processBlock, hb]

/-! ## The changes a command can make -/

/-- Two states that agree on all but the configuration, the ports, the sticky bits, the sequencer registers and the
model's own bookkeeping. -/
structure SameCore (s t : State) : Prop where
  sr : t.sr = s.sr
  maxblk : t.maxblk = s.maxblk
  holders : t.holders = s.holders
  prepared : t.status.prepared = s.status.prepared
  pre : t.pre = s.pre
  units : t.units = s.units
  meters : t.meters = s.meters
  buf : t.buf = s.buf
  dispatch : t.dispatch = s.dispatch

theorem SameCore.refl (s : State) : SameCore s s := ⟨rfl, rfl, rfl, rfl, rfl, rfl, rfl, rfl, rfl⟩

theorem sameCore_respond (s : State) (v : Word) : SameCore s (s.respond v) := by constructor <;> simp

theorem sameCore_raise (e : Err) (s : State) : SameCore s (raise e s) := by constructor <;> simp

/-- Taking a command from its port (20_memory.md R78). -/
theorem sameCore_take (s : State) (p : Port) (x : PortIO) (n : Nat) :
    SameCore s { s.setPort p x with granted := p, serial := n } := by
  constructor <;> simp

/-- The latch of the sequencer registers (10_state.md R35). -/
theorem sameCore_family (s : State) (f : Family) : SameCore s { s with family := f } :=
  ⟨rfl, rfl, rfl, rfl, rfl, rfl, rfl, rfl, rfl⟩

theorem sameCore_bypassPrev (s : State) (b : Bool) : SameCore s { s with bypassPrev := b } :=
  ⟨rfl, rfl, rfl, rfl, rfl, rfl, rfl, rfl, rfl⟩

/-- What a command that answers did to the state, but for its response. -/
inductive CommandEffect (s : State) : State → Prop
  | none : CommandEffect s s
  | config (r : CfgId) (x : Word) : CommandEffect s (s.setCfg r x)
  | holder (h : HolderId) (data : Word) : CommandEffect s (s.setHolder h (legalise h data))
  | write (ch : Channel) (i : Nat) (v : Word) (hi : i < Config.maxblkMax) :
      CommandEffect s { s with buf := s.buf.set ch i v }
  | prepare : CommandEffect s (prepare s)
  | reset : CommandEffect s (resetState s)
  | bypassed (hp : s.status.prepared = true) : CommandEffect s (latched s)
  | block (n : Nat) (hp : s.status.prepared = true) (hc : marksOf (processFrames n (latched s)) = {}) :
      CommandEffect s (valueOf (processFrames n (latched s)))

/-- A refusal is no effect. -/
theorem effect_of_raise {e : Err} {s t : State} (h : Host.Outcome.next (raise e s) = (.next t : Out)) :
    ∃ u, CommandEffect s u ∧ SameCore u t := by
  cases h
  exact ⟨s, .none, sameCore_raise e s⟩

/-- A response is no effect. -/
theorem effect_of_respond {s t u : State} {v : Word} (hu : CommandEffect s u)
    (h : Host.Outcome.next (u.respond v) = (.next t : Out)) : ∃ u, CommandEffect s u ∧ SameCore u t := by
  cases h
  exact ⟨u, hu, sameCore_respond u v⟩

/-- A command behind the port check has no effect where it is refused. -/
theorem effect_of_onPort {op : Opcode} {s t : State} {o : Out} (ho : o = .next t → ∃ u, CommandEffect s u ∧ SameCore u t)
    (h : onPort op s o = .next t) : ∃ u, CommandEffect s u ∧ SameCore u t := by
  rcases onPort_cases op s o with ⟨_, e⟩ | ⟨_, e⟩ <;> rw [e] at h
  · exact ho h
  · exact effect_of_raise h

/-- PROCESS (40_host_commands.md R135). -/
theorem effect_of_processBlock {n : Nat} {s t : State} (hp : s.status.prepared = true)
    (h : finishBlock (processBlock n s) = .next t) : ∃ u, CommandEffect s u ∧ SameCore u t := by
  obtain ⟨ht, hc⟩ := finishBlock_next h
  rw [ht]
  have hw : ∀ u : State, Writer (pure (u.respond 0) : Calc State) := fun _ => Writer.pure _
  by_cases hb : latchedBypass s = true
  · rw [processBlock_bypassed n hb, valueOf_bind _ hw, valueOf_pure]
    exact ⟨latched s, .bypassed hp, sameCore_respond (latched s) 0⟩
  · have hw' := fun t => Writer.bind (writer_processFrames n t) hw
    rw [processBlock_sounding n hb] at hc ⊢
    rw [valueOf_bind _ hw', valueOf_bind _ hw, valueOf_pure]
    exact ⟨_, .block n hp (clean_bind hw (clean_bind hw' hc).2).1, sameCore_respond _ 0⟩

/-- Every effect of a decoded command. -/
theorem effect_of_command {op : Opcode} {w : CmdWord} {s t : State} (h : exec (instrOf op w) s = .next t) :
    ∃ u, CommandEffect s u ∧ SameCore u t := by
  cases op
  case nop => exact effect_of_onPort (op := .nop) (effect_of_respond .none) h
  case getstatus => exact effect_of_onPort (op := .getstatus) (effect_of_respond .none) h
  all_goals refine effect_of_onPort (fun h => ?_) h
  case setcfg =>
    split at h
    · exact effect_of_raise h
    · exact effect_of_respond (.config _ _) h
  case getcfg =>
    split at h
    · exact effect_of_raise h
    · exact effect_of_respond .none h
  case prepare => exact effect_of_respond .prepare h
  case reset =>
    split at h
    · exact effect_of_respond .reset h
    · exact effect_of_raise h
  case process =>
    split at h
    · exact effect_of_raise h
    next hp =>
      split at h
      · exact effect_of_raise h
      · exact effect_of_processBlock (by simpa using hp) h
  case wrbuf =>
    split at h
    · exact effect_of_raise h
    · split at h
      · exact effect_of_raise h
      · exact effect_of_respond (.write _ _ _ (by omega)) h
  case rdbuf =>
    split at h
    · exact effect_of_raise h
    · split at h
      · exact effect_of_raise h
      · split at h
        · cases h
        · exact effect_of_respond .none h
  case setparam =>
    split at h
    · exact effect_of_raise h
    · exact effect_of_respond (.holder _ _) h
  case getparam =>
    split at h
    · exact effect_of_raise h
    · exact effect_of_respond .none h
  case getmeter =>
    split at h
    · exact effect_of_raise h
    · exact effect_of_respond .none h

/-- Every effect of a command word (30_encoding.md R107). -/
theorem effect_of_runCommand {w : CmdWord} {s t : State} (h : runCommand w s = .next t) :
    ∃ u, CommandEffect s u ∧ SameCore u t := by
  unfold runCommand decodeCmd at h
  split at h
  · exact effect_of_raise h
  · exact effect_of_onPort effect_of_raise h
  · next op i hd =>
    split at hd
    · cases hd
    · split at hd
      · cases hd
      · cases hd
        exact effect_of_command h

/-! ## The changes a sequencer code can make (log 4) -/

/-- What a code of the sequencer's slot did to the state. -/
inductive CodeEffect (s : State) : State → Prop
  | unit (u : UnitId) (n : Nat) (hr : (marksOf (unitProcess u n s)).range = false) :
      CodeEffect s (valueOf (unitProcess u n s))
  | coefs (f : FilterId) (c : Coefs) : CodeEffect s (s.setFilter f (withCoefs (s.filter f) c))

theorem effect_of_unitInstr {u : UnitId} {n : Word} {s t : State} (h : exec (unitInstr u n) s = .next t) :
    CodeEffect s t := by
  have h' : finishOp (unitProcess u n.toNat s) = .next t := by cases u <;> exact h
  obtain ⟨rfl, hr, -, -⟩ := finishOp_next h'
  exact .unit u n.toNat hr

theorem effect_of_kindInstr {k : FilterKind} {f : FilterId} {fc q sr g : F32} {i : Instr} {s t : State}
    (hi : kindInstr k f fc q sr g = some i) (h : exec i s = .next t) : CodeEffect s t := by
  have key : ∀ k g, t = s.setFilter f (valueOf ((s.filter f).setc k fc q sr g)) → CodeEffect s t := fun k g e => by
    rw [e, valueOf_setc]
    exact .coefs f _
  cases k <;> simp only [kindInstr, Option.ite_none_right_eq_some, Option.some.injEq] at hi
  case lp => obtain ⟨-, rfl⟩ := hi; cases h; exact key .lp k0 rfl
  case hp => obtain ⟨-, rfl⟩ := hi; cases h; exact key .hp k0 rfl
  case bp => obtain ⟨-, rfl⟩ := hi; cases h; exact key .bp k0 rfl
  case ls => subst hi; cases h; exact key .ls g rfl

/-- Every effect of a decoded code (30_encoding.md R105, R106). -/
theorem effect_of_code {c : SeqWord} {i : Instr} {s t : State} (hi : decodeSeq c = some i) (h : exec i s = .next t) :
    CodeEffect s t := by
  unfold decodeSeq at hi
  split at hi
  · split at hi
    · cases hi
      exact effect_of_unitInstr h
    · cases hi
  · split at hi
    · exact effect_of_kindInstr hi h
    · cases hi

/-- Everything a step can do: a code of the slot, or a command, or nothing. -/
theorem step_effect {s t : State} (h : step s = .next t) :
    (∃ c cs, s.dispatch = c :: cs ∧ CodeEffect { s with dispatch := cs } t) ∨
    (s.dispatch = [] ∧ ∃ s1 u, SameCore s s1 ∧ CommandEffect s1 u ∧ SameCore u t) := by
  rcases step_cases h with ⟨c, cs, i, hd, hi, he⟩ | ⟨hd, -, rfl⟩ | ⟨p, w, ws, hd, -, he⟩
  · exact .inl ⟨c, cs, hd, effect_of_code hi he⟩
  · exact .inr ⟨hd, _, _, .refl _, .none, .refl _⟩
  · obtain ⟨u, hu, ht⟩ := effect_of_runCommand he
    exact .inr ⟨hd, _, u, sameCore_take s p _ _, hu, ht⟩

/-! ## Carrying a property over a step -/

/-- A property of the core of the state that every part of a command but the frames of a block keeps. -/
structure KeptByControl (P : State → Prop) : Prop where
  core : ∀ {s t}, SameCore s t → P s → P t
  holder : ∀ s h data, P s → P (s.setHolder h (legalise h data))
  write : ∀ s ch i v, i < Config.maxblkMax → P s → P { s with buf := s.buf.set ch i v }
  prepare : ∀ s, P s → P (prepare s)
  reset : ∀ s, P s → P (resetState s)
  retarget : ∀ s v x, P s → P (retargeted v x s)

/-- A property of the core of the state that every part of a command keeps. -/
structure KeptByCommands (P : State → Prop) : Prop extends KeptByControl P, KeptByFrames P

theorem KeptByControl.latched {P : State → Prop} (K : KeptByControl P) {s : State} (h : P s) : P (latched s) := by
  have hmixes : ∀ (us : List UnitId) t, P t → P (us.foldl (fun t u => retargeted (.mix u) (s.holders.get (.mix u)) t) t) := by
    intro us
    induction us with
    | nil => exact fun t ht => ht
    | cons u us ih => exact fun t ht => ih _ (K.retarget _ _ _ ht)
  have ha : P (applied s) :=
    hmixes _ _ (K.core (sameCore_family _ _) (K.retarget _ _ _ (K.retarget _ _ _ (K.retarget _ _ _ h))))
  rw [latched_eq]
  split
  · exact K.core (sameCore_bypassPrev _ _) (K.reset _ ha)
  · exact ha

/-- The effect of a command keeps a property, if the frames of a block keep it after the latch. -/
theorem KeptByControl.effect {P : State → Prop} (K : KeptByControl P) {s u : State} (hu : CommandEffect s u)
    (hblock : ∀ n, s.status.prepared = true → marksOf (processFrames n (Safety.latched s)) = {} →
      P (Safety.latched s) → P (valueOf (processFrames n (Safety.latched s)))) (h : P s) : P u := by
  cases hu
  case none => exact h
  case config r x => exact K.core (s := s) (by constructor <;> simp) h
  case holder k data => exact K.holder s k data h
  case write ch i v hi => exact K.write s ch i v hi h
  case prepare => exact K.prepare s h
  case reset => exact K.reset s h
  case bypassed => exact K.latched h
  case block n hp hc => exact hblock n hp hc (K.latched h)

/-- A step with no code waiting keeps what every part of a command keeps. -/
theorem KeptByCommands.step {P : State → Prop} (K : KeptByCommands P) {s t : State} (hd : s.dispatch = [])
    (h : step s = .next t) (hs : P s) : P t := by
  rcases step_effect h with ⟨c, cs, hc, -⟩ | ⟨-, s1, u, h1, hu, ht⟩
  · rw [hd] at hc; cases hc
  · exact K.core ht (K.effect hu (fun _ _ hc hl => K.processFrames hc hl) (K.core h1 hs))

/-- Any step keeps what every part of a command and every coefficient computation keeps. -/
theorem KeptByCommands.anyStep {P : State → Prop} (K : KeptByCommands P)
    (hd : ∀ s cs, P s → P { s with dispatch := cs })
    (hf : ∀ s f c, P s → P (s.setFilter f (withCoefs (s.filter f) c))) {s t : State} (h : Machine.step s = .next t)
    (hs : P s) : P t := by
  rcases step_effect h with ⟨c, cs, -, hc⟩ | ⟨hd, -⟩
  · have hs' := hd s cs hs
    generalize { s with dispatch := cs } = s' at hc hs'
    cases hc
    case unit u n hr => exact K.unitProcess hr hs'
    case coefs f c => exact hf _ f c hs'
  · exact K.step hd h hs

end Sys2Proof.Proofs
end

section
/-! What RESET_STATE and PREPARE make of the whole state (40_host_commands.md R133, R143, R144; 10_state.md R50). -/

namespace Sys2Proof.Proofs

open Sys2Proof Sys2Proof.Machine Sys2Proof.Safety

/-! ## What the register groups depend on -/

theorem smoother_congr {s t : State} (hp : t.pre = s.pre) (hu : t.units = s.units) (v : SmootherId) :
    t.smoother v = s.smoother v := by
  cases v with
  | mix u => cases u <;> simp only [State.smoother, hu]
  | _ => simp only [State.smoother, hp]

theorem filter_congr {s t : State} (hp : t.pre = s.pre) (hu : t.units = s.units) (f : FilterId) :
    t.filter f = s.filter f := by
  cases f <;> simp only [State.filter, hp, hu]

theorem delay_congr {s t : State} (hu : t.units = s.units) (d : DelayId) : t.delay d = s.delay d := by
  cases d <;> simp only [State.delay, hu]

theorem meter_congr {s t : State} (hm : t.meters = s.meters) (k : MeterId) : t.meter k = s.meter k := by
  cases k <;> simp only [State.meter, hm]

/-- Neutrality depends on the preamp, the units and the meters only. -/
theorem neutral_congr {s t : State} (hp : t.pre = s.pre) (hu : t.units = s.units) (hm : t.meters = s.meters)
    (h : neutral s) : neutral t := by
  simpa only [neutral, smoother_congr hp hu, filter_congr hp hu, delay_congr hu, meter_congr hm, hu] using h

/-- A response of a command of the audio port (30_encoding.md R101). -/
theorem respond_audio {s : State} (h : s.granted = .audio) (v : Word) :
    s.respond v = { s with audio := { s.audio with responses := s.audio.responses ++ [rspWord 0 v] } } := by
  cases s
  cases h
  rfl

/-! ## RESET_STATE (R143) -/

theorem smoother_resetState (s : State) (v : SmootherId) : (resetState s).smoother v = snapRule (s.smoother v) := by
  cases v with
  | mix u => cases u <;> rfl
  | _ => rfl

theorem filter_resetState (s : State) (f : FilterId) : (resetState s).filter f = (s.filter f).reset := by cases f <;> rfl

theorem delay_resetState (s : State) (d : DelayId) : (resetState s).delay d = (s.delay d).clear := by cases d <;> rfl

/-- A word of a cleared memory (43_delay_line.md R191; log 18). -/
theorem get_clear (d : DelayLine) (ch : Channel) (i : Nat) :
    d.clear.get ch i = if i < d.cap then 0 else d.get ch i := by
  cases ch <;> exact Words.dlyGet_dlyClear _ _ _

/-- RESET_STATE leaves the audio state neutral (10_state.md R50). -/
theorem neutral_resetState (s : State) : neutral (resetState s) := by
  refine ⟨fun v => ?_, fun f => ?_, fun d => ⟨?_, fun ch i hi => ?_⟩, rfl, rfl, rfl, rfl, rfl, rfl, rfl, rfl, rfl, rfl,
    rfl, rfl, rfl, fun k => ?_⟩
  · rw [smoother_resetState]; exact ⟨rfl, rfl, rfl⟩
  · rw [filter_resetState]; exact ⟨rfl, rfl, rfl, rfl⟩
  · rw [delay_resetState]; rfl
  · rw [delay_resetState] at hi ⊢; rw [get_clear]; exact if_pos hi
  · cases k <;> rfl

/-- What RESET_STATE keeps (R143). -/
theorem keptByReset_resetState (s : State) : keptByReset s (resetState s) := by
  refine ⟨fun v => ?_, fun f => ?_, fun d => ⟨?_, fun ch i hi => ?_⟩, rfl, rfl, rfl⟩
  · rw [smoother_resetState]; exact ⟨rfl, rfl⟩
  · rw [filter_resetState]; rfl
  · rw [delay_resetState]; rfl
  · rw [delay_resetState, get_clear]; exact if_neg (by omega)

/-- Settles O19: the laws of RESET_STATE, and one response on the audio port. -/
theorem stateAfterReset : Obligations.StateAfterReset := by
  intro s hg hp
  have h : exec .reset s = .next ((resetState s).respond 0) := by
    refine (onPort_allowed (by rw [hg]; rfl) _).trans ?_
    rw [if_pos hp]
  refine ⟨_, h, ?_⟩
  rw [respond_audio (s := resetState s) hg]
  exact ⟨neutral_congr rfl rfl rfl (neutral_resetState s), keptByReset_resetState s, rfl, rfl⟩

/-! ## SIZE (R144) -/

theorem valueOf_sizeState (s : State) :
    valueOf (sizeState s) =
      { s with pre := valueOf (s.pre.sizeState s.sr), units := valueOf (s.units.sizeState s.sr) } := by
  unfold sizeState
  rw [valueOf_bind _ fun _ => Writer.bind (writer_unitsSize _ _) fun _ => Writer.pure _,
    valueOf_bind _ fun _ => Writer.pure _, valueOf_pure]

/-- SIZE gives every prepare-time constant its value (R144). -/
theorem sized_sizeState (s : State) : sized (valueOf (sizeState s)) := by
  rw [valueOf_sizeState]
  refine ⟨fun v => ?_, fun d => ?_, fun x hx => ?_, rfl, rfl, fun x hx => ?_⟩
  · cases v with
    | mix u => cases u <;> rfl
    | _ => rfl
  · cases d <;> rfl
  · revert x
    simp only [taps, List.forall_mem_cons]
    exact ⟨rfl, rfl, rfl, rfl, rfl, rfl, rfl, rfl, rfl, rfl, nofun⟩
  · revert x
    simp only [fixedFilters, List.forall_mem_cons]
    exact ⟨rfl, rfl, rfl, rfl, rfl, rfl, rfl, rfl, nofun⟩

/-- The constants of SIZE depend on the rate, the ramp lengths, the capacities, the taps and the fixed coefficients only. -/
theorem sized_congr {s t : State} (hsr : t.sr = s.sr) (hv : ∀ v, (t.smoother v).numSteps = (s.smoother v).numSteps)
    (hd : ∀ d, (t.delay d).cap = (s.delay d).cap) (ht : taps t = taps s) (ha : t.units.rust.ca = s.units.rust.ca)
    (hr : t.units.rust.cr = s.units.rust.cr)
    (hf : ∀ x ∈ fixedFilters, coefsOf (t.filter x.1) = coefsOf (s.filter x.1)) (h : sized s) : sized t := by
  obtain ⟨h1, h2, h3, h4, h5, h6⟩ := h
  refine ⟨fun v => ?_, fun d => ?_, fun x hx => ?_, ?_, ?_, fun x hx => ?_⟩
  · rw [hv, hsr]; exact h1 v
  · rw [hd, hsr]; exact h2 d
  · rw [ht] at hx; rw [hsr]; exact h3 x hx
  · rw [ha, hsr]; exact h4
  · rw [hr, hsr]; exact h5
  · rw [hf x hx, hsr]; exact h6 x hx

/-! ## The targets of PREPARE (R133) -/

/-- The writing of the targets, as one value. -/
theorem valueOf_writeTargets_smoother (s : State) (v : SmootherId) :
    (valueOf (writeTargets s)).smoother v = { s.smoother v with target := latchTarget s.holders v } := by
  cases v with
  | mix u => cases u <;> rfl
  | _ => rfl

theorem valueOf_writeTargets_filter (s : State) (f : FilterId) : (valueOf (writeTargets s)).filter f = s.filter f := by
  cases f <;> rfl

theorem valueOf_writeTargets_delay (s : State) (d : DelayId) : (valueOf (writeTargets s)).delay d = s.delay d := by
  cases d <;> rfl

theorem sized_writeTargets {s : State} (h : sized s) : sized (valueOf (writeTargets s)) :=
  sized_congr (s := s) rfl (fun v => by rw [valueOf_writeTargets_smoother]) (fun d => by rw [valueOf_writeTargets_delay]) rfl rfl
    rfl (fun x _ => by rw [valueOf_writeTargets_filter]) h

/-! ## The coefficients of PREPARE (R133) -/

/-- The state with the coefficients of one filter replaced. -/
def withFilterCoefs (f : FilterId) (c : Coefs) (s : State) : State := s.setFilter f (withCoefs (s.filter f) c)

/-- The state with the same coefficients in the two filters of a pair. -/
def withPairCoefs (l r : FilterId) (c : Coefs) (s : State) : State := withFilterCoefs r c (withFilterCoefs l c s)

theorem valueOf_prepareCoefs (s : State) :
    valueOf (prepareCoefs s) =
      withPairCoefs .snarlL .snarlR (snarlCoefs s.units.snarl.mix.current s.sr)
        (withPairCoefs .velvetL .velvetR (velvetCoefs s.units.velvet.mix.current s.sr)
          (withPairCoefs .shelfL .shelfR (shelfCoefs s.pre.tone.current s.sr) s)) := by
  have w1 := fun (p : Preamp) (v : Velvet) => Writer.bind (writer_snarlStart s.units.snarl s.sr) fun n =>
    Writer.pure { s with pre := p, units := { s.units with velvet := v, snarl := n } }
  have w2 := fun p => Writer.bind (writer_velvetStart s.units.velvet s.sr) (w1 p)
  unfold prepareCoefs
  rw [valueOf_bind _ w2, valueOf_bind _ (w1 _), valueOf_bind _ fun _ => Writer.pure _, valueOf_pure, valueOf_setShelf,
    valueOf_velvetStart, valueOf_snarlStart]
  simp only [withPairCoefs, withFilterCoefs, State.setFilter, State.filter]

theorem filter_withFilterCoefs (f g : FilterId) (c : Coefs) (s : State) :
    (withFilterCoefs f c s).filter g = if g = f then withCoefs (s.filter f) c else s.filter g := by
  split
  · next h => rw [h]; exact State.setFilter_filter _ _ _
  · next h => exact filter_setFilter_ne s _ h

theorem filter_withPairCoefs (l r g : FilterId) (c : Coefs) (s : State) :
    (withPairCoefs l r c s).filter g = if g = l ∨ g = r then withCoefs (s.filter g) c else s.filter g := by
  simp only [withPairCoefs, filter_withFilterCoefs]
  by_cases hr : g = r
  · subst hr
    by_cases hl : g = l
    · subst hl; simp; rfl
    · simp [hl]
  · by_cases hl : g = l
    · subst hl; simp [hr]
    · simp [hl, hr]

theorem smoother_setFilter (s : State) (f : FilterId) (x : Biquad) (v : SmootherId) :
    (s.setFilter f x).smoother v = s.smoother v := by
  cases v with
  | mix u => cases f <;> cases u <;> rfl
  | _ => cases f <;> rfl

theorem delay_setFilter (s : State) (f : FilterId) (x : Biquad) (d : DelayId) :
    (s.setFilter f x).delay d = s.delay d := by
  cases f <;> cases d <;> rfl

/-- Coefficients are no part of a neutral audio state. -/
theorem neutral_withFilterCoefs {f : FilterId} {c : Coefs} {s : State} (h : neutral s) :
    neutral (withFilterCoefs f c s) := by
  obtain ⟨hv, hf, hd, hrest⟩ := h
  refine ⟨fun v => ?_, fun g => ?_, fun d => ?_, ?_⟩
  · rw [withFilterCoefs, smoother_setFilter]; exact hv v
  · rw [filter_withFilterCoefs]
    split
    · exact hf f
    · exact hf g
  · rw [withFilterCoefs, delay_setFilter]; exact hd d
  · cases f <;> exact hrest

/-- The coefficients of a filter that is not fixed are no constant of SIZE. -/
theorem sized_withFilterCoefs {f : FilterId} {c : Coefs} {s : State} (hf : f ∉ fixedFilters.map (·.1)) (h : sized s) :
    sized (withFilterCoefs f c s) := by
  refine sized_congr (State.setFilter_sr _ _ _) (fun v => ?_) (fun d => ?_) ?_ ?_ ?_ (fun x hx => ?_) h
  · rw [withFilterCoefs, smoother_setFilter]
  · rw [withFilterCoefs, delay_setFilter]
  · cases f <;> rfl
  · cases f <;> rfl
  · cases f <;> rfl
  · have hne : x.1 ≠ f := fun e => hf (e ▸ List.mem_map_of_mem hx)
    rw [filter_withFilterCoefs, if_neg hne]

end Sys2Proof.Proofs
end

section
/-! PREPARE and the derived state: every register group after PREPARE (10_state.md R32, R50; 40_host_commands.md R133, R144). -/

namespace Sys2Proof.Proofs

open Sys2Proof Sys2Proof.Machine Sys2Proof.Safety

/-! ## PREPARE (R133) -/

/-- The state of PREPARE after its RESET_STATE: sized for the derived rate, the smoothers at the holders' targets. -/
def prepareSnapped (s : State) : State :=
  resetState (valueOf (writeTargets (valueOf (sizeState
    { s with sr := effectiveRate s.cfg.sampleRate, maxblk := effectiveBlock s.cfg.maxBlock }))))

/-- The coefficients PREPARE computes last, from the snapped values. -/
def prepareFilters (s : State) : State :=
  withPairCoefs .snarlL .snarlR (snarlCoefs s.units.snarl.mix.current s.sr)
    (withPairCoefs .velvetL .velvetR (velvetCoefs s.units.velvet.mix.current s.sr)
      (withPairCoefs .shelfL .shelfR (shelfCoefs s.pre.tone.current s.sr) s))

/-- PREPARE's last writes: `bypass_prev` and PREPARED. -/
def setPrepared (b : Bool) (s : State) : State :=
  { s with bypassPrev := b, status := { s.status with prepared := true } }

theorem prepare_eq (s : State) : prepare s = setPrepared (latchedBypass s) (prepareFilters (prepareSnapped s)) := by
  unfold prepare
  dsimp only
  rw [valueOf_prepareCoefs]
  rfl

/-- The smoothers are idle at the holders' targets (10_state.md R50). -/
theorem smoother_prepareSnapped (s : State) (v : SmootherId) :
    ((prepareSnapped s).smoother v).target = latchTarget s.holders v ∧
      ((prepareSnapped s).smoother v).current = latchTarget s.holders v := by
  unfold prepareSnapped
  rw [smoother_resetState, valueOf_writeTargets_smoother]
  exact ⟨rfl, rfl⟩

theorem neutral_prepareSnapped (s : State) : neutral (prepareSnapped s) := neutral_resetState _

theorem sized_resetState {s : State} (h : sized s) : sized (resetState s) := by
  obtain ⟨hv, hf, hd, ht, ha, hr⟩ := keptByReset_resetState s
  exact sized_congr (s := s) rfl (fun v => (hv v).2) (fun d => (hd d).1) ht ha hr (fun x _ => hf x.1) h

theorem sized_prepareSnapped (s : State) : sized (prepareSnapped s) :=
  sized_resetState (sized_writeTargets (sized_sizeState _))

theorem neutral_prepareFilters {s : State} (h : neutral s) : neutral (prepareFilters s) := by
  unfold prepareFilters withPairCoefs
  iterate 6 refine neutral_withFilterCoefs ?_
  exact h

theorem sized_prepareFilters {s : State} (h : sized s) : sized (prepareFilters s) := by
  unfold prepareFilters withPairCoefs
  iterate 6 refine sized_withFilterCoefs (by decide) ?_
  exact h

theorem filter_prepareFilters (s : State) :
    (∀ f ∈ [FilterId.shelfL, .shelfR], coefsOf ((prepareFilters s).filter f) = shelfCoefs s.pre.tone.current s.sr) ∧
    (∀ f ∈ [FilterId.velvetL, .velvetR],
      coefsOf ((prepareFilters s).filter f) = velvetCoefs s.units.velvet.mix.current s.sr) ∧
    (∀ f ∈ [FilterId.snarlL, .snarlR],
      coefsOf ((prepareFilters s).filter f) = snarlCoefs s.units.snarl.mix.current s.sr) := by
  simp [prepareFilters, filter_withPairCoefs]

theorem smoother_prepareFilters (s : State) (v : SmootherId) : (prepareFilters s).smoother v = s.smoother v := by
  simp only [prepareFilters, withPairCoefs, withFilterCoefs, smoother_setFilter]

/-! ### PREPARE as a whole -/

theorem smoother_setPrepared (b : Bool) (s : State) (v : SmootherId) : (setPrepared b s).smoother v = s.smoother v :=
  smoother_congr rfl rfl v

theorem filter_setPrepared (b : Bool) (s : State) (f : FilterId) : (setPrepared b s).filter f = s.filter f :=
  filter_congr rfl rfl f

theorem delay_setPrepared (b : Bool) (s : State) (d : DelayId) : (setPrepared b s).delay d = s.delay d :=
  delay_congr rfl d

theorem neutral_setPrepared {b : Bool} {s : State} (h : neutral s) : neutral (setPrepared b s) :=
  neutral_congr rfl rfl rfl h

/-- The constants of SIZE depend on the rate, the preamp and the units only. -/
theorem sized_of_eq {s t : State} (hsr : t.sr = s.sr) (hp : t.pre = s.pre) (hu : t.units = s.units) (h : sized s) :
    sized t :=
  sized_congr hsr (fun v => by rw [smoother_congr hp hu]) (fun d => by rw [delay_congr hu]) (by unfold taps; rw [hu])
    (by rw [hu]) (by rw [hu]) (fun x _ => by rw [filter_congr hp hu]) h

theorem sized_setPrepared {b : Bool} {s : State} (h : sized s) : sized (setPrepared b s) :=
  sized_of_eq rfl rfl rfl h

/-- What the last coefficients leave of the registers PREPARE derives. -/
theorem registers_prepareFilters (s : State) :
    (prepareFilters s).sr = s.sr ∧ (prepareFilters s).maxblk = s.maxblk ∧ (prepareFilters s).family = s.family ∧
      (prepareFilters s).status = s.status := by
  simp [prepareFilters, withPairCoefs, withFilterCoefs]

theorem registers_sizeState (s : State) :
    (valueOf (sizeState s)).sr = s.sr ∧ (valueOf (sizeState s)).maxblk = s.maxblk ∧
      (valueOf (sizeState s)).holders = s.holders ∧ (valueOf (sizeState s)).status = s.status := by
  rw [valueOf_sizeState]
  exact ⟨rfl, rfl, rfl, rfl⟩

theorem registers_writeTargets (s : State) :
    (valueOf (writeTargets s)).sr = s.sr ∧ (valueOf (writeTargets s)).maxblk = s.maxblk ∧
      (valueOf (writeTargets s)).family = familyOf s.holders.preampType ∧
      (valueOf (writeTargets s)).status = s.status := ⟨rfl, rfl, rfl, rfl⟩

theorem registers_resetState (s : State) :
    (resetState s).sr = s.sr ∧ (resetState s).maxblk = s.maxblk ∧ (resetState s).family = s.family ∧
      (resetState s).status = s.status := ⟨rfl, rfl, rfl, rfl⟩

/-- The registers PREPARE derives, before its last coefficients (10_state.md R32, R35). -/
theorem registers_prepareSnapped (s : State) :
    (prepareSnapped s).sr = effectiveRate s.cfg.sampleRate ∧ (prepareSnapped s).maxblk = effectiveBlock s.cfg.maxBlock ∧
      (prepareSnapped s).family = familyOf s.holders.preampType ∧ (prepareSnapped s).status = s.status := by
  unfold prepareSnapped
  obtain ⟨r1, r2, r3, r4⟩ := registers_resetState (valueOf (writeTargets (valueOf (sizeState
    { s with sr := effectiveRate s.cfg.sampleRate, maxblk := effectiveBlock s.cfg.maxBlock }))))
  obtain ⟨w1, w2, w3, w4⟩ := registers_writeTargets (valueOf (sizeState
    { s with sr := effectiveRate s.cfg.sampleRate, maxblk := effectiveBlock s.cfg.maxBlock }))
  obtain ⟨z1, z2, z3, z4⟩ := registers_sizeState
    { s with sr := effectiveRate s.cfg.sampleRate, maxblk := effectiveBlock s.cfg.maxBlock }
  rw [z3] at w3
  exact ⟨r1.trans (w1.trans z1), r2.trans (w2.trans z2), r3.trans w3, r4.trans (w4.trans z4)⟩

theorem registers_setPrepared (b : Bool) (s : State) :
    (setPrepared b s).sr = s.sr ∧ (setPrepared b s).maxblk = s.maxblk ∧ (setPrepared b s).family = s.family ∧
      (setPrepared b s).status = { s.status with prepared := true } := ⟨rfl, rfl, rfl, rfl⟩

/-- The registers PREPARE derives; the sticky bits are kept (R133). -/
theorem registers_prepare (s : State) :
    (prepare s).sr = effectiveRate s.cfg.sampleRate ∧ (prepare s).maxblk = effectiveBlock s.cfg.maxBlock ∧
      (prepare s).family = familyOf s.holders.preampType ∧ (prepare s).status = { s.status with prepared := true } := by
  obtain ⟨p1, p2, p3, p4⟩ := registers_prepareSnapped s
  obtain ⟨f1, f2, f3, f4⟩ := registers_prepareFilters (prepareSnapped s)
  obtain ⟨q1, q2, q3, q4⟩ := registers_setPrepared (latchedBypass s) (prepareFilters (prepareSnapped s))
  rw [f4, p4] at q4
  rw [prepare_eq]
  exact ⟨q1.trans (f1.trans p1), q2.trans (f2.trans p2), q3.trans (f3.trans p3), q4⟩

theorem sr_prepare (s : State) : (prepare s).sr = effectiveRate s.cfg.sampleRate := (registers_prepare s).1

theorem maxblk_prepare (s : State) : (prepare s).maxblk = effectiveBlock s.cfg.maxBlock := (registers_prepare s).2.1

theorem family_prepare (s : State) : (prepare s).family = familyOf s.holders.preampType := (registers_prepare s).2.2.1

/-- PREPARE sets PREPARED and keeps the sticky bits (R133). -/
theorem status_prepare (s : State) : (prepare s).status = { s.status with prepared := true } := (registers_prepare s).2.2.2

theorem bypassPrev_prepare (s : State) : (prepare s).bypassPrev = (s.holders.bypass != 0) := by
  rw [prepare_eq]
  rfl

/-- PREPARE leaves the audio state neutral (10_state.md R50). -/
theorem neutral_prepare (s : State) : neutral (prepare s) := by
  rw [prepare_eq]
  exact neutral_setPrepared (neutral_prepareFilters (neutral_prepareSnapped s))

/-- PREPARE recomputes every prepare-time constant (R144). -/
theorem sized_prepare (s : State) : sized (prepare s) := by
  rw [prepare_eq]
  have h := sized_prepareFilters (sized_prepareSnapped s)
  exact sized_setPrepared h

theorem target_prepare (s : State) (v : SmootherId) : ((prepare s).smoother v).target = latchTarget s.holders v := by
  rw [prepare_eq, smoother_setPrepared, smoother_prepareFilters]
  exact (smoother_prepareSnapped s v).1

/-- The coefficients PREPARE computes from the snapped values (R133). -/
theorem filter_prepare (s : State) :
    (∀ f ∈ [FilterId.shelfL, .shelfR], coefsOf ((prepare s).filter f) = shelfCoefs s.holders.tone (prepare s).sr) ∧
    (∀ f ∈ [FilterId.velvetL, .velvetR],
      coefsOf ((prepare s).filter f) = velvetCoefs s.holders.cathVelvet (prepare s).sr) ∧
    (∀ f ∈ [FilterId.snarlL, .snarlR],
      coefsOf ((prepare s).filter f) = snarlCoefs s.holders.steelSnarl (prepare s).sr) := by
  have h := filter_prepareFilters (prepareSnapped s)
  have ht : (prepareSnapped s).pre.tone.current = s.holders.tone := (smoother_prepareSnapped s .tone).2
  have hv : (prepareSnapped s).units.velvet.mix.current = s.holders.cathVelvet :=
    (smoother_prepareSnapped s (.mix .velvet)).2
  have hn : (prepareSnapped s).units.snarl.mix.current = s.holders.steelSnarl :=
    (smoother_prepareSnapped s (.mix .snarl)).2
  have hsr : (prepareSnapped s).sr = (prepare s).sr := (registers_prepareSnapped s).1.trans (sr_prepare s).symm
  have hf : ∀ f, (prepare s).filter f = (prepareFilters (prepareSnapped s)).filter f := fun f => by
    rw [prepare_eq, filter_setPrepared]
  rw [ht, hv, hn, hsr] at h
  simpa only [hf] using h

/-! ### What PREPARE leaves alone -/

/-- The two states agree on everything PREPARE leaves alone. -/
structure SamePeriphery (s t : State) : Prop where
  cfg : t.cfg = s.cfg
  holders : t.holders = s.holders
  buf : t.buf = s.buf
  audio : t.audio = s.audio
  control : t.control = s.control
  monitor : t.monitor = s.monitor
  granted : t.granted = s.granted
  serial : t.serial = s.serial
  dispatch : t.dispatch = s.dispatch
  wires : t.wires = s.wires

theorem SamePeriphery.trans {s t u : State} (h : SamePeriphery s t) (h' : SamePeriphery t u) : SamePeriphery s u :=
  ⟨h'.cfg.trans h.cfg, h'.holders.trans h.holders, h'.buf.trans h.buf, h'.audio.trans h.audio,
    h'.control.trans h.control, h'.monitor.trans h.monitor, h'.granted.trans h.granted, h'.serial.trans h.serial,
    h'.dispatch.trans h.dispatch, h'.wires.trans h.wires⟩

/-- With the rest put back, the state after a response on the audio port is the old one. -/
theorem SamePeriphery.restore {s t : State} (h : SamePeriphery s t) (ht : t.granted = .audio) (v : Word) :
    { t.respond v with
      sr := s.sr, maxblk := s.maxblk, status := s.status, bypassPrev := s.bypassPrev, family := s.family, pre := s.pre
      units := s.units, meters := s.meters, audio := s.audio } = s := by
  rw [respond_audio ht]
  simp only [h.cfg, h.holders, h.buf, h.control, h.monitor, h.granted, h.serial, h.dispatch, h.wires]

theorem samePeriphery_derive (s : State) (r : F32) (n : Nat) : SamePeriphery s { s with sr := r, maxblk := n } :=
  ⟨rfl, rfl, rfl, rfl, rfl, rfl, rfl, rfl, rfl, rfl⟩

theorem samePeriphery_sizeState (s : State) : SamePeriphery s (valueOf (sizeState s)) := by
  rw [valueOf_sizeState]
  exact ⟨rfl, rfl, rfl, rfl, rfl, rfl, rfl, rfl, rfl, rfl⟩

theorem samePeriphery_writeTargets (s : State) : SamePeriphery s (valueOf (writeTargets s)) :=
  ⟨rfl, rfl, rfl, rfl, rfl, rfl, rfl, rfl, rfl, rfl⟩

theorem samePeriphery_resetState (s : State) : SamePeriphery s (resetState s) :=
  ⟨rfl, rfl, rfl, rfl, rfl, rfl, rfl, rfl, rfl, rfl⟩

theorem samePeriphery_prepareFilters (s : State) : SamePeriphery s (prepareFilters s) := by
  constructor <;> simp [prepareFilters, withPairCoefs, withFilterCoefs]

theorem samePeriphery_setPrepared (b : Bool) (s : State) : SamePeriphery s (setPrepared b s) :=
  ⟨rfl, rfl, rfl, rfl, rfl, rfl, rfl, rfl, rfl, rfl⟩

theorem samePeriphery_prepare (s : State) : SamePeriphery s (prepare s) := by
  have h : SamePeriphery s (prepareSnapped s) :=
    (((samePeriphery_derive s _ _).trans (samePeriphery_sizeState _)).trans (samePeriphery_writeTargets _)).trans
      (samePeriphery_resetState _)
  rw [prepare_eq]
  exact (h.trans (samePeriphery_prepareFilters _)).trans (samePeriphery_setPrepared _ _)

/-! ### The answers of PREPARE -/

theorem execPrepare_eq {s : State} (hg : s.granted = .audio) : exec .prepare s = .next ((prepare s).respond 0) :=
  onPort_allowed (by rw [hg]; rfl) _

/-- Settles O17: the derivations of PREPARE. -/
theorem prepareDerives : Obligations.PrepareDerives := by
  intro s hg
  refine ⟨_, execPrepare_eq hg, ?_, ?_, ?_⟩
  · rw [State.respond_status, status_prepare]
  · rw [State.respond_sr, sr_prepare, effectiveRate_eq_rateRule]
  · rw [State.respond_maxblk, maxblk_prepare, effectiveBlock_eq_blockRule]

/-- Settles O18: the laws of PREPARE above, carried over its response. -/
theorem stateAfterPrepare : Obligations.StateAfterPrepare := by
  intro s hg
  have hper := samePeriphery_prepare s
  have hg' : (prepare s).granted = .audio := hper.granted.trans hg
  have hpre : ((prepare s).respond 0).pre = (prepare s).pre := State.respond_pre _ _
  have hunits : ((prepare s).respond 0).units = (prepare s).units := State.respond_units _ _
  have hsr : ((prepare s).respond 0).sr = (prepare s).sr := State.respond_sr _ _
  obtain ⟨hshelf, hvelvet, hsnarl⟩ := filter_prepare s
  refine ⟨_, execPrepare_eq hg, ?_, ?_, ?_, ?_, fun v => ?_, ?_, ?_, ?_, ?_, ?_, ?_, ?_, ?_⟩
  · rw [hsr, sr_prepare, effectiveRate_eq_rateRule]
  · rw [State.respond_maxblk, maxblk_prepare, effectiveBlock_eq_blockRule]
  · exact neutral_congr hpre hunits (State.respond_meters _ _) (neutral_prepare s)
  · exact sized_of_eq hsr hpre hunits (sized_prepare s)
  · rw [smoother_congr hpre hunits]; exact target_prepare s v
  · simpa only [filter_congr hpre hunits, hsr] using hshelf
  · simpa only [filter_congr hpre hunits, hsr] using hvelvet
  · simpa only [filter_congr hpre hunits, hsr] using hsnarl
  · rw [State.respond_family, family_prepare]
  · rw [State.respond_bypassPrev, bypassPrev_prepare]
  · rw [State.respond_status, status_prepare]
  · rw [respond_audio hg']
    dsimp only
    rw [hper.audio]
  · exact hper.restore hg' 0

end Sys2Proof.Proofs
end

section
/-! What each part of a block makes of the register groups: the frame of a unit, the frame of the preamp, a block start,
the update of a smoother and of a meter. -/

namespace Sys2Proof.Proofs

open Sys2Proof Sys2Proof.Machine Sys2Proof.Safety

/-! ## Smoothers and meters -/

theorem filter_setSmoother (s : State) (v : SmootherId) (x : Smoother) (f : FilterId) :
    (s.setSmoother v x).filter f = s.filter f := by
  cases v with
  | mix u => cases u <;> cases f <;> rfl
  | _ => cases f <;> rfl

theorem delay_setSmoother (s : State) (v : SmootherId) (x : Smoother) (d : DelayId) :
    (s.setSmoother v x).delay d = s.delay d := by
  cases v with
  | mix u => cases u <;> cases d <;> rfl
  | _ => cases d <;> rfl

/-- A smoother is no phase, counter or index of a unit. -/
theorem cursors_setSmoother (s : State) (v : SmootherId) (x : Smoother) :
    phases (s.setSmoother v x) = phases s ∧ (s.setSmoother v x).units.grind.cnt = s.units.grind.cnt ∧
      (s.setSmoother v x).units.glisten.shimR = s.units.glisten.shimR := by
  cases v with
  | mix u => cases u <;> exact ⟨rfl, rfl, rfl⟩
  | _ => exact ⟨rfl, rfl, rfl⟩

/-! ## A frame of a unit -/

/-- A frame of a unit changes the units and the buffer only (10_state.md R30). -/
theorem unitFrame_frame (u : UnitId) (s : State) (i : Nat) :
    { unitFrame u s i with units := s.units, buf := s.buf } = s := by
  unfold unitFrame
  split
  · cases u <;> rfl
  · cases u <;> rfl

theorem unitFrame_sr (u : UnitId) (s : State) (i : Nat) : (unitFrame u s i).sr = s.sr := by
  have h := congrArg State.sr (unitFrame_frame u s i)
  exact h

theorem unitFrame_maxblk (u : UnitId) (s : State) (i : Nat) : (unitFrame u s i).maxblk = s.maxblk := by
  have h := congrArg State.maxblk (unitFrame_frame u s i)
  exact h

theorem unitFrame_holders (u : UnitId) (s : State) (i : Nat) : (unitFrame u s i).holders = s.holders := by
  have h := congrArg State.holders (unitFrame_frame u s i)
  exact h

theorem unitFrame_status (u : UnitId) (s : State) (i : Nat) : (unitFrame u s i).status = s.status := by
  have h := congrArg State.status (unitFrame_frame u s i)
  exact h

theorem unitFrame_meters (u : UnitId) (s : State) (i : Nat) : (unitFrame u s i).meters = s.meters := by
  have h := congrArg State.meters (unitFrame_frame u s i)
  exact h

theorem unitFrame_dispatch (u : UnitId) (s : State) (i : Nat) : (unitFrame u s i).dispatch = s.dispatch := by
  have h := congrArg State.dispatch (unitFrame_frame u s i)
  exact h

/-- A frame of a unit advances its own mix and no other smoother (45_units_cathode.md R230). -/
theorem smoother_unitFrame (u : UnitId) (s : State) (i : Nat) (v : SmootherId) :
    (unitFrame u s i).smoother v = if v = .mix u then mixAfter u s else s.smoother v := by
  have hset : (s.setSmoother (.mix u) (mixAfter u s)).smoother v = if v = .mix u then mixAfter u s else s.smoother v := by
    split
    · next h => rw [h, State.setSmoother_smoother]
    · next h => exact smoother_setSmoother_ne s _ h
  rw [← hset]
  unfold unitFrame
  split
  · rfl
  · cases v with
    | mix w => cases u <;> cases w <;> rfl
    | _ => cases u <;> rfl

/-- A frame of a unit changes no coefficient. -/
theorem coefs_unitFrame (u : UnitId) (s : State) (i : Nat) (f : FilterId) :
    coefsOf ((unitFrame u s i).filter f) = coefsOf (s.filter f) := by
  unfold unitFrame
  split
  · rw [filter_setSmoother]
  · cases u <;> cases f <;> rfl

/-- A frame of a unit leaves a memory as it is, or writes one frame of it and advances (43_delay_line.md R196). -/
theorem delay_unitFrame (u : UnitId) (s : State) (i : Nat) (d : DelayId) :
    (unitFrame u s i).delay d = s.delay d ∨ ∃ vL vR, (unitFrame u s i).delay d = pushRule (s.delay d) vL vR := by
  unfold unitFrame
  split
  · exact .inl (delay_setSmoother s _ _ d)
  · cases u <;> cases d <;> first | exact .inl rfl | exact .inr ⟨_, _, rfl⟩

/-- The shimmer index moves by two words of its memory or not at all (46_units_filament.md R254). -/
theorem shimR_unitFrame (u : UnitId) (s : State) (i : Nat) :
    (unitFrame u s i).units.glisten.shimR = s.units.glisten.shimR ∨
      (unitFrame u s i).units.glisten.shimR = (s.units.glisten.shimR + 2) % s.units.glisten.shim.cap := by
  unfold unitFrame
  split
  · exact .inl (cursors_setSmoother s _ _).2.2
  · cases u
    case glisten => exact .inr rfl
    all_goals exact .inl rfl

/-- A frame that keeps inside the buffer leaves the buffer as it is, or writes one of its frames. -/
theorem buf_unitFrame {u : UnitId} {s : State} {i : Nat} (h : frameReached u s i) :
    (unitFrame u s i).buf = s.buf ∨
      i < Config.maxblkMax ∧ ∃ l r, (unitFrame u s i).buf = writeFrame s.buf i l r := by
  unfold unitFrame
  split
  · exact .inl (State.setSmoother_buf _ _ _)
  · next hs => exact .inr ⟨h.resolve_left hs, by cases u <;> exact ⟨_, _, rfl⟩⟩

/-! ## A frame of the preamp -/

theorem delay_preampFrame (s : State) (i : Nat) (d : DelayId) : (preampFrame s i).delay d = s.delay d :=
  delay_congr rfl d

theorem delay_setBuf (s : State) (b : SampleBuffer) (d : DelayId) : { s with buf := b }.delay d = s.delay d :=
  delay_congr rfl d

/-- A frame of the preamp advances the three smoothers of the preamp (48_preamp.md R280). -/
theorem smoother_preampFrame (s : State) (i : Nat) (v : SmootherId) :
    (preampFrame s i).smoother v = (nextRule (s.smoother v)).2 ∨ (preampFrame s i).smoother v = s.smoother v := by
  cases v with
  | mix u => cases u <;> exact .inr rfl
  | _ => exact .inl rfl

/-- The two shelves get the same coefficients; no other filter's change (R280, R282). -/
theorem coefs_preampFrame (s : State) (i : Nat) (f : FilterId) :
    coefsOf ((preampFrame s i).filter f) =
      if f = .shelfL ∨ f = .shelfR then shelfCoefs (nextRule s.pre.tone).1 s.sr else coefsOf (s.filter f) := by
  cases f <;> rfl

/-! ## A block start -/

/-- A block start sets the coefficients of the unit's own pair, or nothing (45_units_cathode.md R233). -/
theorem blockStarted_cases (u : UnitId) (s : State) :
    blockStarted u s = s ∨ (∃ c, blockStarted u s = withPairCoefs .velvetL .velvetR c s) ∨
      ∃ c, blockStarted u s = withPairCoefs .snarlL .snarlR c s := by
  cases u
  case velvet => exact .inr (.inl ⟨_, rfl⟩)
  case snarl => exact .inr (.inr ⟨_, rfl⟩)
  all_goals exact .inl rfl

end Sys2Proof.Proofs
end

section
/-! The invariants of a safe run that need nothing of the arithmetic: equal coefficients in a pair, canonical memory with its
cursors inside, smoothers within their ramps, legal holders (10_state.md R48). -/

namespace Sys2Proof.Proofs

open Sys2Proof Sys2Proof.Machine Sys2Proof.Safety

/-! ## The sequencer's slot (log 4) -/

/-- A command puts no code into the sequencer's slot. -/
theorem keptByCommands_noCode : KeptByCommands (fun s => s.dispatch = []) where
  start s u h := by
    rcases blockStarted_cases u s with e | ⟨c, e⟩ | ⟨c, e⟩ <;> rw [e]
    · exact h
    · simpa [withPairCoefs, withFilterCoefs] using h
    · simpa [withPairCoefs, withFilterCoefs] using h
  unit s u i h _ := (unitFrame_dispatch u s i).trans h
  preamp s i h _ := h
  meter s k pk h _ _ := (State.setMeter_dispatch s k _).trans h
  core hc h := hc.dispatch.trans h
  holder s k data h := (State.setHolder_dispatch s k _).trans h
  write _ _ _ _ _ h := h
  prepare s h := (samePeriphery_prepare s).dispatch.trans h
  reset s h := (samePeriphery_resetState s).dispatch.trans h
  retarget s v x h := (State.setSmoother_dispatch s v _).trans h

/-! ## Pairs of filters (10_state.md R37, 42_biquad.md R181) -/

/-- The two filters of a pair hold equal coefficients. -/
def pairsEqual (s : State) : Prop := ∀ x ∈ pairs, coefsOf (s.filter x.1) = coefsOf (s.filter x.2)

theorem pairsEqual_of_coefs {s t : State} (h : ∀ f, coefsOf (t.filter f) = coefsOf (s.filter f)) (hs : pairsEqual s) :
    pairsEqual t := fun x hx => by rw [h, h]; exact hs x hx

/-- The same coefficients for both filters of a pair keep all pairs equal. -/
theorem pairsEqual_of_pair {s t : State} {y : FilterId × FilterId} (hy : y ∈ pairs) {c : Coefs}
    (h : ∀ f, coefsOf (t.filter f) = if f = y.1 ∨ f = y.2 then c else coefsOf (s.filter f)) (hs : pairsEqual s) :
    pairsEqual t := by
  intro x hx
  have hboth : ∀ y ∈ pairs, ∀ x ∈ pairs, (x.1 = y.1 ∨ x.1 = y.2 ↔ x.2 = y.1 ∨ x.2 = y.2) := by decide
  rw [h, h]
  simp only [hboth y hy x hx, hs x hx]

theorem pairsEqual_withPairCoefs {y : FilterId × FilterId} (hy : y ∈ pairs) {c : Coefs} {s : State} (hs : pairsEqual s) :
    pairsEqual (withPairCoefs y.1 y.2 c s) :=
  pairsEqual_of_pair hy (c := c) (fun f => by rw [filter_withPairCoefs, apply_ite coefsOf, coefsOf_withCoefs]) hs

/-- PREPARE computes the coefficients of both filters of a pair alike (40_host_commands.md R133, R144). -/
theorem pairsEqual_prepare (s : State) : pairsEqual (prepare s) := by
  obtain ⟨-, -, -, -, -, hfixed⟩ := sized_prepare s
  obtain ⟨hshelf, hvelvet, hsnarl⟩ := filter_prepare s
  simp only [fixedFilters, List.forall_mem_cons] at hfixed hshelf hvelvet hsnarl
  obtain ⟨hdcL, hdcR, hechoL, hechoR, hhazeL, hhazeR, hglistenL, hglistenR, -⟩ := hfixed
  simp only [pairsEqual, pairs, List.forall_mem_cons]
  exact ⟨hshelf.1.trans hshelf.2.1.symm, hdcL.trans hdcR.symm, hvelvet.1.trans hvelvet.2.1.symm, hechoL.trans hechoR.symm,
    hhazeL.trans hhazeR.symm, hglistenL.trans hglistenR.symm, hsnarl.1.trans hsnarl.2.1.symm, nofun⟩

theorem keptByCommands_pairsEqual : KeptByCommands pairsEqual where
  start s u h := by
    rcases blockStarted_cases u s with e | ⟨c, e⟩ | ⟨c, e⟩ <;> rw [e]
    · exact h
    · exact pairsEqual_withPairCoefs (y := (.velvetL, .velvetR)) (by decide) h
    · exact pairsEqual_withPairCoefs (y := (.snarlL, .snarlR)) (by decide) h
  unit s u i h _ := pairsEqual_of_coefs (coefs_unitFrame u s i) h
  preamp s i h _ := pairsEqual_of_pair (y := (.shelfL, .shelfR)) (by decide) (coefs_preampFrame s i) h
  meter s k pk h _ _ := pairsEqual_of_coefs
    (fun f => by rw [filter_congr (State.setMeter_pre s k _) (State.setMeter_units s k _)]) h
  core hc h := pairsEqual_of_coefs (fun f => by rw [filter_congr hc.pre hc.units]) h
  holder s k data h := pairsEqual_of_coefs
    (fun f => by rw [filter_congr (State.setHolder_pre s k _) (State.setHolder_units s k _)]) h
  write s ch i v _ h := pairsEqual_of_coefs (fun f => congrArg coefsOf (filter_congr rfl rfl f)) h
  prepare s _ := pairsEqual_prepare s
  reset s h := pairsEqual_of_coefs (fun f => by rw [filter_resetState, coefsOf_reset]) h
  retarget s v x h := pairsEqual_of_coefs (fun f => by rw [retargeted, filter_setSmoother]) h

/-- Settles O29: each part of a command keeps the pairs equal and puts no code into the slot. -/
theorem pairInvKept : Obligations.PairInvKept := fun _ _ ⟨hd, hp⟩ h =>
  ⟨keptByCommands_noCode.step hd h hd, keptByCommands_pairsEqual.step hd h hp⟩

/-! ## Memory (20_memory.md R71, 43_delay_line.md R197) -/

/-- A delay memory is canonical and its write position inside. -/
def lineOk (d : DelayLine) : Prop := d.wf = true ∧ inside d.writePos d.cap

theorem memoryInv_iff (s : State) : MemoryInv s ↔
    s.buf.wf = true ∧ (∀ d, lineOk (s.delay d)) ∧ inside s.units.glisten.shimR (s.delay .glistenS).cap := by
  rw [MemoryInv, Memory.wf_iff]
  exact ⟨fun ⟨⟨hb, hw⟩, hi, hs⟩ => ⟨hb, fun d => ⟨hw d, hi d⟩, hs⟩,
    fun ⟨hb, hd, hs⟩ => ⟨⟨hb, fun d => (hd d).1⟩, fun d => (hd d).2, hs⟩⟩

theorem inside_mod (n cap : Nat) : inside (n % cap) cap := (Nat.eq_zero_or_pos cap).imp_right (Nat.mod_lt n)

theorem inside_zero (cap : Nat) : inside 0 cap := Nat.eq_zero_or_pos cap

/-- A write and an advance keep a memory canonical and its position inside (R192, R195). -/
theorem lineOk_pushRule {d : DelayLine} (vL vR : F32) (h : lineOk d) : lineOk (pushRule d vL vR) := by
  have e : pushRule d vL vR = (d.write vL vR).advance := rfl
  refine ⟨?_, inside_mod _ _⟩
  rw [e, DelayLine.wf_advance]
  exact DelayLine.wf_write vL vR h.1

/-- A cleared memory is canonical and its position inside (R191). -/
theorem lineOk_clear {d : DelayLine} (h : d.wf = true) : lineOk d.clear := ⟨DelayLine.wf_clear h, inside_zero _⟩

theorem wf_writeFrame {b : SampleBuffer} {i : Nat} (hi : i < Config.maxblkMax) (l r : F32) (h : b.wf = true) :
    (writeFrame b i l r).wf = true := SampleBuffer.wf_set _ _ hi (SampleBuffer.wf_set _ _ hi h)

theorem memoryInv_congr {s t : State} (hu : t.units = s.units) (hb : t.buf = s.buf) (h : MemoryInv s) : MemoryInv t := by
  rw [memoryInv_iff] at h ⊢
  simpa only [delay_congr hu, hu, hb] using h

/-- Coefficients are no part of a memory. -/
theorem memoryInv_withFilterCoefs {f : FilterId} {c : Coefs} {s : State} (h : MemoryInv s) :
    MemoryInv (withFilterCoefs f c s) := by
  rw [memoryInv_iff] at h ⊢
  have hshim : (withFilterCoefs f c s).units.glisten.shimR = s.units.glisten.shimR := by cases f <;> rfl
  have hd : ∀ d, (withFilterCoefs f c s).delay d = s.delay d := delay_setFilter s f _
  have hb : (withFilterCoefs f c s).buf = s.buf := State.setFilter_buf _ _ _
  simpa only [hshim, hd, hb] using h

/-- A frame of a unit that keeps inside the buffer. -/
theorem memoryInv_unitFrame {u : UnitId} {s : State} {i : Nat} (hi : frameReached u s i) (h : MemoryInv s) :
    MemoryInv (unitFrame u s i) := by
  rw [memoryInv_iff] at h ⊢
  obtain ⟨hb, hd, hs⟩ := h
  refine ⟨?_, fun d => ?_, ?_⟩
  · rcases buf_unitFrame hi with e | ⟨hlt, l, r, e⟩ <;> rw [e]
    · exact hb
    · exact wf_writeFrame hlt l r hb
  · rcases delay_unitFrame u s i d with e | ⟨vL, vR, e⟩ <;> rw [e]
    · exact hd d
    · exact lineOk_pushRule vL vR (hd d)
  · have hcap : ((unitFrame u s i).delay .glistenS).cap = (s.delay .glistenS).cap := by
      rcases delay_unitFrame u s i .glistenS with e | ⟨vL, vR, e⟩ <;> rw [e]
      rfl
    rw [hcap]
    rcases shimR_unitFrame u s i with e | e <;> rw [e]
    · exact hs
    · exact inside_mod _ _

/-- PREPARE sizes each memory and clears it (40_host_commands.md R133). -/
theorem delay_prepare (s : State) (d : DelayId) : ∃ c, (prepare s).delay d = ({ s.delay d with cap := c } : DelayLine).clear := by
  have hsize : ∀ t : State, ∃ c, (valueOf (sizeState t)).delay d = { t.delay d with cap := c } := fun t => by
    rw [valueOf_sizeState]
    cases d <;> exact ⟨_, rfl⟩
  have hfilters : ∀ t, (prepareFilters t).delay d = t.delay d := fun t => by
    simp only [prepareFilters, withPairCoefs, withFilterCoefs, delay_setFilter]
  obtain ⟨c, hc⟩ := hsize { s with sr := effectiveRate s.cfg.sampleRate, maxblk := effectiveBlock s.cfg.maxBlock }
  refine ⟨c, ?_⟩
  rw [prepare_eq, delay_setPrepared, hfilters, prepareSnapped, delay_resetState, valueOf_writeTargets_delay, hc]
  exact congrArg (fun x : DelayLine => ({ x with cap := c } : DelayLine).clear) (delay_congr rfl d)

theorem memoryInv_prepare {s : State} (h : MemoryInv s) : MemoryInv (prepare s) := by
  rw [memoryInv_iff] at h ⊢
  obtain ⟨hb, hd, -⟩ := h
  obtain ⟨-, -, -, hshim, -⟩ := neutral_prepare s
  refine ⟨by rw [(samePeriphery_prepare s).buf]; exact hb, fun d => ?_, by rw [hshim]; exact inside_zero _⟩
  obtain ⟨c, e⟩ := delay_prepare s d
  rw [e]
  exact lineOk_clear (hd d).1

theorem memoryInv_resetState {s : State} (h : MemoryInv s) : MemoryInv (resetState s) := by
  rw [memoryInv_iff] at h ⊢
  obtain ⟨hb, hd, -⟩ := h
  refine ⟨hb, fun d => ?_, inside_zero _⟩
  rw [delay_resetState]
  exact lineOk_clear (hd d).1

theorem memoryInv_setSmoother {s : State} {v : SmootherId} {x : Smoother} (h : MemoryInv s) :
    MemoryInv (s.setSmoother v x) := by
  rw [memoryInv_iff] at h ⊢
  simpa only [delay_setSmoother, State.setSmoother_buf, (cursors_setSmoother s v x).2.2] using h

theorem keptByCommands_memoryInv : KeptByCommands MemoryInv where
  start s u h := by
    rcases blockStarted_cases u s with e | ⟨c, e⟩ | ⟨c, e⟩ <;> rw [e]
    · exact h
    · exact memoryInv_withFilterCoefs (memoryInv_withFilterCoefs h)
    · exact memoryInv_withFilterCoefs (memoryInv_withFilterCoefs h)
  unit _ _ _ h hi := memoryInv_unitFrame hi h
  preamp s i h hi := by
    rw [memoryInv_iff] at h ⊢
    exact ⟨wf_writeFrame hi _ _ h.1, fun d => by rw [delay_preampFrame]; exact h.2.1 d, h.2.2⟩
  meter s k pk h _ _ := memoryInv_congr (State.setMeter_units s k _) (State.setMeter_buf s k _) h
  core hc h := memoryInv_congr hc.units hc.buf h
  holder s k data h := memoryInv_congr (State.setHolder_units s k _) (State.setHolder_buf s k _) h
  write s ch i v hi h := by
    rw [memoryInv_iff] at h ⊢
    exact ⟨SampleBuffer.wf_set ch v hi h.1, fun d => by rw [delay_setBuf]; exact h.2.1 d, h.2.2⟩
  prepare _ h := memoryInv_prepare h
  reset _ h := memoryInv_resetState h
  retarget _ _ _ h := memoryInv_setSmoother h

/-- Settles O55: every part of a step keeps memory canonical and the cursors inside. -/
theorem memoryInvKept : Obligations.MemoryInvKept := fun _ _ hs h =>
  keptByCommands_memoryInv.anyStep (fun _ _ h => h) (fun _ _ _ h => memoryInv_withFilterCoefs h) h hs

end Sys2Proof.Proofs
end

section
/-! The remaining invariants of a safe run (10_state.md R48): smoothers within their ramps, legal holders, meters that are not
negative, phases and Grind's counter in their ranges; and all six at power-on. -/

namespace Sys2Proof.Proofs

open Sys2Proof Sys2Proof.Machine Sys2Proof.Safety

/-! ## Smoothers (41_smoother.md R160) -/

/-- A smoother is idle at its target or within its ramp. -/
def rampOk (v : Smoother) : Prop := v.stepsRemaining ≤ v.numSteps ∧ (v.stepsRemaining = 0 → v.current = v.target)

theorem rampOk_idle {v : Smoother} (hs : v.stepsRemaining = 0) (hc : v.current = v.target) : rampOk v :=
  ⟨hs ▸ Nat.zero_le _, fun _ => hc⟩

/-- SV.NEXT ends a ramp on its target (R163). -/
theorem rampOk_nextRule {v : Smoother} (h : rampOk v) : rampOk (nextRule v).2 := by
  unfold nextRule
  split
  · exact h
  · refine ⟨(Nat.sub_le _ _).trans h.1, fun h0 => ?_⟩
    dsimp only at h0 ⊢
    rw [if_pos h0]

/-- SV.SETTARGET starts a ramp of the full length, or is there at once (R162). -/
theorem rampOk_settargetRule {v : Smoother} (t : F32) (h : rampOk v) : rampOk (settargetRule v t) := by
  unfold settargetRule
  split
  · exact h
  · split
    · exact rampOk_idle rfl rfl
    next hn => exact ⟨le_rfl, fun h0 => absurd h0 hn⟩

/-- The smoothers of a state in which each is one of another state's, or advanced. -/
theorem smootherInv_of {s t : State} (h : ∀ v, t.smoother v = s.smoother v ∨ t.smoother v = (nextRule (s.smoother v)).2)
    (hs : SmootherInv s) : SmootherInv t := fun v => by
  rcases h v with e | e <;> rw [e]
  · exact hs v
  · exact rampOk_nextRule (hs v)

theorem smootherInv_withFilterCoefs {f : FilterId} {c : Coefs} {s : State} (h : SmootherInv s) :
    SmootherInv (withFilterCoefs f c s) := smootherInv_of (fun v => .inl (smoother_setFilter s f _ v)) h

theorem smootherInv_of_neutral {s : State} (h : neutral s) : SmootherInv s := fun v =>
  let ⟨hc, hs, _⟩ := h.1 v
  rampOk_idle hs hc

theorem keptByCommands_smootherInv : KeptByCommands SmootherInv where
  start s u h := by
    rcases blockStarted_cases u s with e | ⟨c, e⟩ | ⟨c, e⟩ <;> rw [e]
    · exact h
    · exact smootherInv_withFilterCoefs (smootherInv_withFilterCoefs h)
    · exact smootherInv_withFilterCoefs (smootherInv_withFilterCoefs h)
  unit s u i h _ := smootherInv_of (fun v => by
    rw [smoother_unitFrame]
    split
    · next hv => rw [hv]; exact .inr rfl
    · exact .inl rfl) h
  preamp s i h _ := smootherInv_of (fun v => (smoother_preampFrame s i v).symm) h
  meter s k pk h _ _ := smootherInv_of
    (fun v => .inl (smoother_congr (State.setMeter_pre s k _) (State.setMeter_units s k _) v)) h
  core hc h := smootherInv_of (fun v => .inl (smoother_congr hc.pre hc.units v)) h
  holder s k data h := smootherInv_of
    (fun v => .inl (smoother_congr (State.setHolder_pre s k _) (State.setHolder_units s k _) v)) h
  write s ch i v _ h := smootherInv_of (fun v => .inl (smoother_congr rfl rfl v)) h
  prepare s _ := smootherInv_of_neutral (neutral_prepare s)
  reset s _ := smootherInv_of_neutral (neutral_resetState s)
  retarget s v x h w := by
    rw [smoother_retargeted]
    split
    · exact rampOk_settargetRule x (h v)
    · exact h w

/-- Settles O56: every part of a step keeps the smoothers within their ramps. -/
theorem smootherInvKept : Obligations.SmootherInvKept := fun _ _ hs h =>
  keptByCommands_smootherInv.anyStep (fun _ _ h v => smoother_congr rfl rfl v ▸ h v)
    (fun _ _ _ h => smootherInv_withFilterCoefs h) h hs

/-! ## Holders and the block length (R33, R32) -/

theorem holderInv_congr {s t : State} (hh : t.holders = s.holders) (hp : t.status.prepared = s.status.prepared)
    (hm : t.maxblk = s.maxblk) (h : HolderInv s) : HolderInv t := by
  obtain ⟨hl, hb⟩ := h
  refine ⟨fun k => ?_, fun ht => ?_⟩
  · rw [State.holder, hh]; exact hl k
  · rw [hm]; exact hb (hp ▸ ht)

theorem holderInv_withFilterCoefs {f : FilterId} {c : Coefs} {s : State} (h : HolderInv s) :
    HolderInv (withFilterCoefs f c s) :=
  holderInv_congr (State.setFilter_holders s f _) (congrArg Status.prepared (State.setFilter_status s f _))
    (State.setFilter_maxblk s f _) h

theorem keptByCommands_holderInv : KeptByCommands HolderInv where
  start s u h := by
    rcases blockStarted_cases u s with e | ⟨c, e⟩ | ⟨c, e⟩ <;> rw [e]
    · exact h
    · exact holderInv_withFilterCoefs (holderInv_withFilterCoefs h)
    · exact holderInv_withFilterCoefs (holderInv_withFilterCoefs h)
  unit s u i h _ := holderInv_congr (unitFrame_holders u s i) (congrArg Status.prepared (unitFrame_status u s i))
    (unitFrame_maxblk u s i) h
  preamp s i h _ := holderInv_congr (s := s) rfl rfl rfl h
  meter s k pk h _ _ := holderInv_congr (State.setMeter_holders s k _)
    (congrArg Status.prepared (State.setMeter_status s k _)) (State.setMeter_maxblk s k _) h
  core hc h := holderInv_congr hc.holders hc.prepared hc.maxblk h
  holder s k data h := by
    obtain ⟨hl, hb⟩ := h
    refine ⟨fun j => ?_, ?_⟩
    · by_cases hj : j = k
      · rw [hj, State.setHolder_holder]; exact legalWord_legalise k data
      · rw [holder_setHolder_ne s _ hj]; exact hl j
    · rw [State.setHolder_status, State.setHolder_maxblk]; exact hb
  write s ch i v _ h := holderInv_congr (s := s) rfl rfl rfl h
  prepare s h := by
    refine ⟨fun k => ?_, fun _ => ?_⟩
    · rw [State.holder, (samePeriphery_prepare s).holders]; exact h.1 k
    · rw [maxblk_prepare]; exact effectiveBlock_mem _
  reset s h := holderInv_congr (s := s) rfl rfl rfl h
  retarget s v x h := holderInv_congr (State.setSmoother_holders s v _)
    (congrArg Status.prepared (State.setSmoother_status s v _)) (State.setSmoother_maxblk s v _) h

/-- Settles O57: SETPARAM stores legal words, PREPARE derives a legal length, and nothing else writes them. -/
theorem holderInvKept : Obligations.HolderInvKept := fun _ _ hs h =>
  keptByCommands_holderInv.anyStep (fun _ _ h => h) (fun _ _ _ h => holderInv_withFilterCoefs h) h hs

/-! ## Meters (44_primitives.md R215) -/

theorem meterInv_congr {s t : State} (hm : t.meters = s.meters) (h : MeterInv s) : MeterInv t := fun k => by
  rw [meter_congr hm]; exact h k

theorem meterInv_of_neutral {s : State} (h : neutral s) : MeterInv s := fun k => by
  obtain ⟨-, -, -, -, -, -, -, -, -, -, -, -, -, -, -, -, hm⟩ := h
  rw [hm k]; decide

theorem meterInv_withFilterCoefs {f : FilterId} {c : Coefs} {s : State} (h : MeterInv s) :
    MeterInv (withFilterCoefs f c s) := meterInv_congr (State.setFilter_meters s f _) h

/-- A meter update from a peak that is not negative, with a finite product (R215). -/
theorem nonneg_meterRule {old pk : F32} (ho : nonneg old) (hp : nonneg pk) (hf : isFin (fMul old meterDecay) = true) :
    nonneg (meterRule old pk) := nonneg_dMax hp (nonneg_fMul ho nonneg_meterDecay hf)

theorem keptByCommands_meterInv : KeptByCommands MeterInv where
  start s u h := by
    rcases blockStarted_cases u s with e | ⟨c, e⟩ | ⟨c, e⟩ <;> rw [e]
    · exact h
    · exact meterInv_withFilterCoefs (meterInv_withFilterCoefs h)
    · exact meterInv_withFilterCoefs (meterInv_withFilterCoefs h)
  unit s u i h _ := meterInv_congr (unitFrame_meters u s i) h
  preamp s i h _ := meterInv_congr (s := s) rfl h
  meter s k pk h hpk hf j := by
    by_cases hj : j = k
    · rw [hj, State.setMeter_meter]; exact nonneg_meterRule (h k) hpk hf
    · rw [meter_setMeter_ne s _ hj]; exact h j
  core hc h := meterInv_congr hc.meters h
  holder s k data h := meterInv_congr (State.setHolder_meters s k _) h
  write s ch i v _ h := meterInv_congr (s := s) rfl h
  prepare s _ := meterInv_of_neutral (neutral_prepare s)
  reset s _ := meterInv_of_neutral (neutral_resetState s)
  retarget s v x h := meterInv_congr (State.setSmoother_meters s v _) h

/-- Settles O58: the meter updates of a clean block keep the meters at numbers that are not negative. -/
theorem meterInvKept : Obligations.MeterInvKept := fun _ _ hs h =>
  keptByCommands_meterInv.anyStep (fun _ _ h => h) (fun _ _ _ h => meterInv_withFilterCoefs h) h hs

/-! ## Phases and Grind's counter (R39, 47_units_steel.md R268) -/

/-- The ranges of the phases and the counter, and of a prepared rate. -/
def cursorsOk (s : State) : Prop :=
  (∀ p ∈ phases s, phaseOk p) ∧ s.units.grind.cnt ≤ 7 ∧ (s.status.prepared = true → rateOk s.sr)

theorem phaseCounterInv_iff (s : State) : PhaseCounterInv s ↔ s.dispatch = [] ∧ cursorsOk s := Iff.rfl

theorem cursorsOk_congr {s t : State} (hph : phases t = phases s) (hc : t.units.grind.cnt = s.units.grind.cnt)
    (hp : t.status.prepared = s.status.prepared) (hsr : t.sr = s.sr) (h : cursorsOk s) : cursorsOk t := by
  unfold cursorsOk
  rwa [hph, hc, hp, hsr]

theorem phases_congr {s t : State} (hu : t.units = s.units) : phases t = phases s := by
  unfold phases
  rw [hu]

theorem cursorsOk_of_neutral {s : State} (h : neutral s) (hsr : s.status.prepared = true → rateOk s.sr) : cursorsOk s := by
  obtain ⟨-, -, -, -, hcnt, hdrift, hecho, hphase, hshred, -⟩ := h
  refine ⟨fun p hp => ?_, hcnt ▸ Nat.zero_le _, hsr⟩
  rw [phases, hdrift, hecho, hphase, hshred] at hp
  rw [show p = 0 by simpa using hp]
  exact phaseOk_zero

theorem keptByControl_cursorsOk : KeptByControl cursorsOk where
  core hc h := cursorsOk_congr (phases_congr hc.units) (by rw [hc.units]) hc.prepared hc.sr h
  holder s k data h := cursorsOk_congr (phases_congr (State.setHolder_units s k _)) (by rw [State.setHolder_units])
    (by rw [State.setHolder_status]) (State.setHolder_sr s k _) h
  write s ch i v _ h := cursorsOk_congr (s := s) rfl rfl rfl rfl h
  prepare s _ := cursorsOk_of_neutral (neutral_prepare s) fun _ => by rw [sr_prepare]; exact rateOk_effectiveRate _
  reset s h := cursorsOk_of_neutral (neutral_resetState s) h.2.2
  retarget s v x h :=
    let ⟨hph, hcnt, _⟩ := cursors_setSmoother s v (settargetRule (s.smoother v) x)
    cursorsOk_congr hph hcnt (congrArg Status.prepared (State.setSmoother_status s v _)) (State.setSmoother_sr s v _) h

/-- A mix stays below 8/7 from here on (log 31). -/
def calm (v : Smoother) : Prop := ∀ k, fLt (advanced k v).current 0x3F924924#32 = true

theorem advanced_nextRule (k : Nat) (v : Smoother) : advanced k (nextRule v).2 = advanced (k + 1) v := by
  induction k with
  | zero => rfl
  | succ k ih => rw [advanced, ih]; rfl

theorem calm_nextRule {v : Smoother} (h : calm v) : calm (nextRule v).2 := fun k => by
  rw [advanced_nextRule]; exact h (k + 1)

/-- The value SV.NEXT gives is the current value after it (41_smoother.md R163). -/
theorem nextRule_value (v : Smoother) : (nextRule v).1 = (nextRule v).2.current := by
  unfold nextRule
  split <;> rfl

theorem calm.value {v : Smoother} (h : calm v) : fLt (nextRule v).1 0x3F924924#32 = true := by
  rw [nextRule_value]; exact h 1

/-- What the frames of a block keep of the phases and the counter: their ranges, an allowed rate, and calm mixes. -/
def cursorsCalm (s : State) : Prop :=
  (∀ p ∈ phases s, phaseOk p) ∧ s.units.grind.cnt ≤ 7 ∧ rateOk s.sr ∧ calm (s.smoother (.mix .shred)) ∧
    calm (s.smoother (.mix .grind))

theorem cursorsCalm_congr {s t : State} (hph : phases t = phases s) (hc : t.units.grind.cnt = s.units.grind.cnt)
    (hsr : t.sr = s.sr) (hv : ∀ u, t.smoother (.mix u) = s.smoother (.mix u)) (h : cursorsCalm s) : cursorsCalm t := by
  unfold cursorsCalm
  rwa [hph, hc, hsr, hv, hv]

theorem cursorsCalm_withFilterCoefs {f : FilterId} {c : Coefs} {s : State} (h : cursorsCalm s) :
    cursorsCalm (withFilterCoefs f c s) :=
  cursorsCalm_congr (by cases f <;> rfl) (by cases f <;> rfl) (State.setFilter_sr s f _)
    (fun u => smoother_setFilter s f _ (.mix u)) h

/-- A frame of a unit keeps every phase in [0, 1) (44_primitives.md R210). -/
theorem phases_unitFrame {u : UnitId} {s : State} {i : Nat} (h : cursorsCalm s) :
    ∀ p ∈ phases (unitFrame u s i), phaseOk p := by
  obtain ⟨hph, -, hsr, hshred, -⟩ := h
  unfold unitFrame
  split
  · rw [(cursors_setSmoother s _ _).1]; exact hph
  next hq =>
    have hall := hph
    simp only [phases, List.forall_mem_cons] at hall
    obtain ⟨hdrift, hecho, hphase, hshredP, hnil⟩ := hall
    have hnext := fun p rate (hp : phaseOk p) (hr : upTo rate 0x447A0000#32) => phaseOk_lfoRule hp hr hsr
    cases u
    case drift =>
      exact List.forall_mem_cons.mpr ⟨hnext _ k0_3 hdrift (by unfold upTo; decide),
        List.forall_mem_cons.mpr ⟨hecho, List.forall_mem_cons.mpr ⟨hphase, List.forall_mem_cons.mpr ⟨hshredP, hnil⟩⟩⟩⟩
    case echo =>
      exact List.forall_mem_cons.mpr ⟨hdrift, List.forall_mem_cons.mpr ⟨hnext _ k0_5 hecho (by unfold upTo; decide),
        List.forall_mem_cons.mpr ⟨hphase, List.forall_mem_cons.mpr ⟨hshredP, hnil⟩⟩⟩⟩
    case phase =>
      exact List.forall_mem_cons.mpr ⟨hdrift, List.forall_mem_cons.mpr ⟨hecho,
        List.forall_mem_cons.mpr ⟨hnext _ k0_2 hphase (by unfold upTo; decide),
          List.forall_mem_cons.mpr ⟨hshredP, hnil⟩⟩⟩⟩
    case shred =>
      exact List.forall_mem_cons.mpr ⟨hdrift, List.forall_mem_cons.mpr ⟨hecho, List.forall_mem_cons.mpr ⟨hphase,
        List.forall_mem_cons.mpr ⟨hnext _ _ hshredP (shredRate_upTo hq hshred.value), hnil⟩⟩⟩⟩
    all_goals exact hph

/-- A frame of a unit keeps Grind's counter at most 7 (47_units_steel.md R268; log 31). -/
theorem cnt_unitFrame {u : UnitId} {s : State} {i : Nat} (h : cursorsCalm s) :
    (unitFrame u s i).units.grind.cnt ≤ 7 := by
  obtain ⟨-, hcnt, -, -, hgrind⟩ := h
  unfold unitFrame
  split
  · rw [(cursors_setSmoother s _ _).2.1]; exact hcnt
  next hq =>
    cases u
    case grind =>
      have hhold := grindHold_le hq hgrind.value
      change (if _ ≤ _ then 0 else _) ≤ 7
      split <;> omega
    all_goals exact hcnt

theorem keptByFrames_cursorsCalm : KeptByFrames cursorsCalm where
  start s u h := by
    rcases blockStarted_cases u s with e | ⟨c, e⟩ | ⟨c, e⟩ <;> rw [e]
    · exact h
    · exact cursorsCalm_withFilterCoefs (cursorsCalm_withFilterCoefs h)
    · exact cursorsCalm_withFilterCoefs (cursorsCalm_withFilterCoefs h)
  unit s u i h _ := by
    have hcalm : ∀ w, calm (s.smoother (.mix w)) → calm ((unitFrame u s i).smoother (.mix w)) := fun w hw => by
      rw [smoother_unitFrame]
      split
      · next e => rw [mixAfter, ← e]; exact calm_nextRule hw
      · exact hw
    obtain ⟨-, -, hsr, hshred, hgrind⟩ := id h
    exact ⟨phases_unitFrame h, cnt_unitFrame h, (unitFrame_sr u s i).symm ▸ hsr, hcalm _ hshred, hcalm _ hgrind⟩
  preamp s i h _ := cursorsCalm_congr (s := s) rfl rfl rfl (fun u => by cases u <;> rfl) h
  meter s k pk h _ _ := cursorsCalm_congr (phases_congr (State.setMeter_units s k _)) (by rw [State.setMeter_units])
    (State.setMeter_sr s k _)
    (fun u => smoother_congr (State.setMeter_pre s k _) (State.setMeter_units s k _) (.mix u)) h

theorem smoother_setBypassPrev (s : State) (b : Bool) (v : SmootherId) :
    { s with bypassPrev := b }.smoother v = s.smoother v := smoother_congr rfl rfl v

/-- The latch leaves a mix at its new target's ramp, or snapped to it (40_host_commands.md R135, R142). -/
theorem smoother_latched (s : State) (v : SmootherId) :
    (latched s).smoother v = settargetRule (s.smoother v) (latchTarget s.holders v) ∨
      (latched s).smoother v = snapRule (settargetRule (s.smoother v) (latchTarget s.holders v)) := by
  rw [latched_eq]
  split
  · right
    rw [smoother_setBypassPrev, smoother_resetState, smoother_applied]
  · exact .inl (smoother_applied s v)

/-- Under the premise on the mixes, a mix is calm after the latch. -/
theorem calm_latched {u : UnitId} {s : State} (h : mixBelow u s) : calm ((latched s).smoother (.mix u)) := by
  rcases smoother_latched s (.mix u) with e | e <;> rw [e]
  · exact h _ (by simp [latchTarget])
  · exact h _ (by simp [latchTarget])

/-- PREPARED is cleared by no command. -/
theorem keptByControl_prepared : KeptByControl (fun s => s.status.prepared = true) where
  core hc h := hc.prepared.trans h
  holder s k _ h := (congrArg Status.prepared (State.setHolder_status s k _)).trans h
  write _ _ _ _ _ h := h
  prepare s _ := congrArg Status.prepared (status_prepare s)
  reset _ h := h
  retarget s v _ h := (congrArg Status.prepared (State.setSmoother_status s v _)).trans h

theorem mixBelow_congr {u : UnitId} {s t : State} (hc : SameCore s t) (h : mixBelow u s) : mixBelow u t := by
  unfold mixBelow
  rw [smoother_congr hc.pre hc.units, hc.holders]
  exact h

/-- PREPARED and the rate are no frame's. -/
theorem cursorsOk_of_calm {s : State} (h : cursorsCalm s) : cursorsOk s := ⟨h.1, h.2.1, fun _ => h.2.2.1⟩

/-- Settles O59: a latched block keeps the phases and the counter in range while the mixes stay below 8/7; every other
part of a command zeroes or keeps them. -/
theorem phaseCounterInvKept : Obligations.PhaseCounterInvKept := by
  intro s t hs hshred hgrind h
  obtain ⟨hd, hok⟩ := (phaseCounterInv_iff s).mp hs
  refine (phaseCounterInv_iff t).mpr ⟨keptByCommands_noCode.step hd h hd, ?_⟩
  rcases step_effect h with ⟨c, cs, hc, -⟩ | ⟨-, s1, u, h1, hu, ht⟩
  · rw [hd] at hc; cases hc
  · refine keptByControl_cursorsOk.core ht (keptByControl_cursorsOk.effect hu (fun n hp hc hl => ?_)
      (keptByControl_cursorsOk.core h1 hok))
    have hlatched : cursorsCalm (latched s1) :=
      ⟨hl.1, hl.2.1, hl.2.2 (keptByControl_prepared.latched hp), calm_latched (mixBelow_congr h1 hshred),
        calm_latched (mixBelow_congr h1 hgrind)⟩
    exact cursorsOk_of_calm (keptByFrames_cursorsCalm.processFrames hc hlatched)

/-! ## Power-on (R49) -/

/-- The phases and the counter at power-on. -/
theorem cursorsOk_reset : cursorsOk State.reset := by
  have h : phases State.reset = List.replicate 4 0 := rfl
  refine ⟨fun p hp => ?_, Nat.zero_le _, fun h => nomatch h⟩
  rw [h] at hp
  rw [List.eq_of_mem_replicate hp]
  exact phaseOk_zero

/-- Settles O60: each invariant of the power-on state, register file by register file. -/
theorem invariantsAtReset : Obligations.InvariantsAtReset := by
  obtain ⟨-, hholders, -⟩ := powerOnValues
  refine ⟨?_, fun v => ?_, ⟨fun k => ?_, fun h => nomatch h⟩, ⟨rfl, ?_⟩, fun k => ?_, rfl, cursorsOk_reset⟩
  · exact ⟨Memory.wf_reset, fun d => .inl (by cases d <;> rfl), .inl rfl⟩
  · cases v with
    | mix u => cases u <;> exact rampOk_idle rfl rfl
    | _ => exact rampOk_idle rfl rfl
  · rw [hholders k]
    cases k with
    | bypass => exact Nat.zero_le 1
    | preampType => exact Nat.zero_le 2
    | _ => exact ⟨by decide, by decide⟩
  · decide
  · cases k <;> decide

end Sys2Proof.Proofs
end

section
/-! How a step comes to its instruction (20_memory.md R78; logs 2, 3, 4): one equation per kind of step, and the serving of
a command that waits alone. -/

namespace Sys2Proof.Proofs

open Sys2Proof Sys2Proof.Machine

/-! ## One step -/

/-- A step with a code in the sequencer's slot (log 4). -/
theorem step_of_code {s : State} {c : SeqWord} {cs : List SeqWord} {i : Instr} (hd : s.dispatch = c :: cs)
    (hi : decodeSeq c = some i) : step s = exec i { s with dispatch := cs } := by
  simp only [step, hd, runCode, hi]

/-- A step with a command to serve (30_encoding.md R107). -/
theorem step_of_command {s s1 : State} {w : CmdWord} {op : Opcode} {i : Instr} (hd : s.dispatch = [])
    (hn : nextCommand s = some (w, s1)) (hw : decodeCmd w = .instr op i) : step s = exec i s1 := by
  simp only [step, hd, hn, runCommand, hw]

/-- A step with nothing waiting (60_exceptions.md R317). -/
theorem step_idle {s : State} (hd : s.dispatch = []) (h : ∀ p, (s.port p).commands = []) : step s = .next s := by
  simp only [step, hd, nextCommand_none.mpr h]

/-! ## A command that waits alone -/

theorem waitingPorts_alone {s : State} {p : Port} (hp : (s.port p).commands ≠ [])
    (h : ∀ q, q ≠ p → (s.port q).commands = []) : waitingPorts s = [p] := by
  cases p with
  | audio => simp [waitingPorts, hp, h .control nofun, h .monitor nofun]
  | control => simp [waitingPorts, hp, h .audio nofun, h .monitor nofun]
  | monitor => simp [waitingPorts, hp, h .audio nofun, h .control nofun]

/-- Whatever the arbiter answers, a command that waits alone is the next one (20_memory.md R78, log 3). -/
theorem nextCommand_alone {s : State} {p : Port} {w : CmdWord} {ws : List CmdWord} (hw : (s.port p).commands = w :: ws)
    (h : ∀ q, q ≠ p → (s.port q).commands = []) :
    nextCommand s =
      some (w, { s.setPort p { s.port p with commands := ws } with granted := p, serial := s.serial + 1 }) := by
  have hp : (s.port p).commands ≠ [] := by simp [hw]
  simp only [nextCommand, choosePort, waitingPorts_alone hp h, takeFrom, hw]

/-! ## The only command waiting (log 4) -/

theorem onlyCommand_dispatch (s : State) (p : Port) (w : CmdWord) : (s.onlyCommand p w).dispatch = [] :=
  State.setPort_dispatch _ _ _

theorem onlyCommand_serial (s : State) (p : Port) (w : CmdWord) : (s.onlyCommand p w).serial = s.serial :=
  State.setPort_serial _ _ _

theorem onlyCommand_commands (s : State) (p : Port) (w : CmdWord) : ((s.onlyCommand p w).port p).commands = [w] := by
  cases p <;> rfl

theorem onlyCommand_commands_ne (s : State) {p q : Port} (w : CmdWord) (h : q ≠ p) :
    ((s.onlyCommand p w).port q).commands = [] := by
  cases p <;> cases q <;> first | rfl | exact absurd rfl h

/-- With its only command taken, the state is the quiet one. -/
theorem onlyCommand_taken (s : State) (p : Port) (w : CmdWord) :
    (s.onlyCommand p w).setPort p { (s.onlyCommand p w).port p with commands := [] } =
      State.quiet { s with dispatch := [] } := by
  cases p <;> rfl

/-- The very next step takes the only command. -/
theorem nextCommand_onlyCommand (s : State) (p : Port) (w : CmdWord) :
    nextCommand (s.onlyCommand p w) =
      some (w, { State.quiet { s with dispatch := [] } with granted := p, serial := s.serial + 1 }) := by
  rw [nextCommand_alone (onlyCommand_commands s p w) fun q hq => onlyCommand_commands_ne s w hq, onlyCommand_taken,
    onlyCommand_serial]

/-- A command word with a meaning passes the decoder's checks (30_encoding.md R107). -/
theorem decodeCmd_of_decode {w : CmdWord} {i : Instr} (h : decode (.cmd w) = some i) : ∃ op, decodeCmd w = .instr op i := by
  cases hw : decodeCmd w with
  | instr op j =>
    simp only [decode, hw, Option.some.injEq] at h
    exact ⟨op, h ▸ rfl⟩
  | reservedOp => simp [decode, hw] at h
  | badField op => simp [decode, hw] at h

/-- Settles O9: the equations of a step, and `withFetchWord` as a slot with one code or as the only command. -/
theorem stepRunsDecoded : Obligations.StepRunsDecoded := by
  refine ⟨fun s c cs i => step_of_code, fun s w s1 op i => step_of_command, fun s p w ws => nextCommand_alone,
    fun s => step_idle, fun s w i hi => ?_, fun s w i hi => ?_⟩
  · exact step_of_code (s := s.withFetchWord 8 w) rfl hi
  · have hmod : BitVec.ofNat 64 (w % 2 ^ 64) = BitVec.ofNat 64 w := BitVec.eq_of_toNat_eq (Nat.mod_mod w (2 ^ 64))
    have hfetch : s.withFetchWord 64 w = s.onlyCommand (portFor (BitVec.ofNat 64 w)) (BitVec.ofNat 64 w) := by
      rw [← hmod]; rfl
    have hdec : decode (.cmd (BitVec.ofNat 64 w)) = some i := by rw [← hmod]; exact hi
    obtain ⟨op, hop⟩ := decodeCmd_of_decode hdec
    rw [hfetch]
    exact step_of_command (onlyCommand_dispatch _ _ _) (nextCommand_onlyCommand _ _ _) hop

end Sys2Proof.Proofs
end

section
/-! What a command answers (30_encoding.md R101, R107; 60_exceptions.md R305): a refusal of the state it found, or the effect
of the command and one response. No effect of a command touches a port. -/

namespace Sys2Proof.Proofs

open Sys2Proof Sys2Proof.Machine Sys2Proof.Safety

/-! ## The answer of a command -/

/-- The next states a command can have: refused with a code, or performed with a value. -/
inductive Answer (s : State) : State → Prop
  | refused (e : Err) : Answer s (raise e s)
  | performed {u : State} (v : Word) (hu : CommandEffect s u) : Answer s (u.respond v)

/-- An outcome whose next state, where it has one, is an answer. -/
def Answers (s : State) (o : Out) : Prop := ∀ t, o = .next t → Answer s t

theorem answers_raise (s : State) (e : Err) : Answers s (.next (raise e s)) := fun _ h =>
  Host.Outcome.next.inj h ▸ .refused e

theorem answers_respond {s u : State} (hu : CommandEffect s u) (v : Word) : Answers s (.next (u.respond v)) := fun _ h =>
  Host.Outcome.next.inj h ▸ .performed v hu

theorem answers_stop (s : State) (r : Refusal) : Answers s (.refused r) := by
  intro _ h
  cases h

/-- The port check answers itself where it refuses (30_encoding.md R107). -/
theorem answers_onPort {op : Opcode} {s : State} {o : Out} (h : Answers s o) : Answers s (onPort op s o) := by
  rcases onPort_cases op s o with ⟨-, e⟩ | ⟨-, e⟩ <;> rw [e]
  · exact h
  · exact answers_raise s .port

/-- PROCESS after its checks responds in the state its latch and its frames made (40_host_commands.md R135). -/
theorem answers_processBlock {n : Nat} {s : State} (hp : s.status.prepared = true) :
    Answers s (finishBlock (processBlock n s)) := by
  intro t h
  obtain ⟨ht, hc⟩ := finishBlock_next h
  rw [ht]
  have hw : ∀ u : State, Writer (pure (u.respond 0) : Calc State) := fun _ => Writer.pure _
  by_cases hb : latchedBypass s = true
  · rw [processBlock_bypassed n hb, valueOf_bind _ hw, valueOf_pure]
    exact .performed 0 (.bypassed hp)
  · have hw' := fun t => Writer.bind (writer_processFrames n t) hw
    rw [processBlock_sounding n hb] at hc ⊢
    rw [valueOf_bind _ hw', valueOf_bind _ hw, valueOf_pure]
    exact .performed 0 (.block n hp (clean_bind hw (clean_bind hw' hc).2).1)

/-- Every command answers: its checks refuse in the state they find, its meaning responds after its effect. -/
theorem answers_command (op : Opcode) (w : CmdWord) (s : State) : Answers s (exec (instrOf op w) s) := by
  cases op
  case nop => exact answers_onPort (op := .nop) (answers_respond .none _)
  case getstatus => exact answers_onPort (op := .getstatus) (answers_respond .none _)
  all_goals refine answers_onPort ?_
  case prepare => exact answers_respond .prepare _
  case setcfg =>
    split
    · exact answers_raise s .sel
    · exact answers_respond (.config _ _) _
  case setparam =>
    split
    · exact answers_raise s .sel
    · exact answers_respond (.holder _ _) _
  case reset =>
    split
    · exact answers_respond .reset _
    · exact answers_raise s .notPrep
  case process =>
    split
    · exact answers_raise s .notPrep
    next hp =>
      split
      · exact answers_raise s .len
      · exact answers_processBlock (by simpa using hp)
  case wrbuf =>
    split
    · exact answers_raise s .sel
    · split
      · exact answers_raise s .index
      · exact answers_respond (.write _ _ _ (by omega)) _
  case rdbuf =>
    split
    · exact answers_raise s .sel
    · split
      · exact answers_raise s .index
      · split
        · exact answers_stop s _
        · exact answers_respond .none _
  case getcfg | getparam | getmeter =>
    split
    · exact answers_raise s .sel
    · exact answers_respond .none _

/-- The instruction of a command word is the one its opcode names (30_encoding.md R103). -/
theorem eq_instrOf_of_decodeCmd {w : CmdWord} {op : Opcode} {i : Instr} (h : decodeCmd w = .instr op i) :
    i = instrOf op w := by
  unfold decodeCmd at h
  split at h
  · cases h
  · split at h
    · cases h
    · cases h; rfl

/-- Every command word answers (30_encoding.md R107). -/
theorem answers_runCommand (w : CmdWord) (s : State) : Answers s (runCommand w s) := by
  rcases runCommand_cases w s with ⟨-, e⟩ | ⟨op, -, e⟩ | ⟨op, i, hi, e⟩ <;> rw [e]
  · exact answers_raise s .illegal
  · exact answers_onPort (answers_raise s .illegal)
  · rw [eq_instrOf_of_decodeCmd hi]
    exact answers_command op w s

/-! ## What no effect of a command touches -/

/-- The two states agree on the three ports and on the one being served. -/
structure SamePorts (s t : State) : Prop where
  audio : t.audio = s.audio
  control : t.control = s.control
  monitor : t.monitor = s.monitor
  granted : t.granted = s.granted

theorem SamePorts.port {s t : State} (h : SamePorts s t) (p : Port) : t.port p = s.port p := by
  cases p
  · exact h.audio
  · exact h.control
  · exact h.monitor

theorem SamePorts.refl (s : State) : SamePorts s s := ⟨rfl, rfl, rfl, rfl⟩

theorem SamePorts.trans {s t u : State} (h : SamePorts s t) (h' : SamePorts t u) : SamePorts s u :=
  ⟨h'.audio.trans h.audio, h'.control.trans h.control, h'.monitor.trans h.monitor, h'.granted.trans h.granted⟩

theorem SamePeriphery.samePorts {s t : State} (h : SamePeriphery s t) : SamePorts s t :=
  ⟨h.audio, h.control, h.monitor, h.granted⟩

theorem samePeriphery_retargeted (v : SmootherId) (x : F32) (s : State) : SamePeriphery s (retargeted v x s) := by
  constructor <;> simp [retargeted]

theorem samePeriphery_foldl_retargeted (h : Holders) (us : List UnitId) (s : State) :
    SamePeriphery s (us.foldl (fun t u => retargeted (.mix u) (h.get (.mix u)) t) s) := by
  induction us generalizing s with
  | nil => exact ⟨rfl, rfl, rfl, rfl, rfl, rfl, rfl, rfl, rfl, rfl⟩
  | cons u us ih => exact (samePeriphery_retargeted _ _ s).trans (ih _)

theorem samePeriphery_family (s : State) (f : Family) : SamePeriphery s { s with family := f } :=
  ⟨rfl, rfl, rfl, rfl, rfl, rfl, rfl, rfl, rfl, rfl⟩

theorem samePeriphery_bypassPrev (s : State) (b : Bool) : SamePeriphery s { s with bypassPrev := b } :=
  ⟨rfl, rfl, rfl, rfl, rfl, rfl, rfl, rfl, rfl, rfl⟩

/-- APPLY_PARAMS changes smoothers and the family only (40_host_commands.md R142). -/
theorem samePeriphery_applied (s : State) : SamePeriphery s (applied s) :=
  ((((samePeriphery_retargeted .drive _ s).trans (samePeriphery_retargeted .tone _ _)).trans
    (samePeriphery_retargeted .out _ _)).trans (samePeriphery_family _ _)).trans (samePeriphery_foldl_retargeted _ _ _)

/-- The latch of PROCESS leaves everything outside the audio state alone (R135). -/
theorem samePeriphery_latched (s : State) : SamePeriphery s (latched s) := by
  rw [latched_eq]
  split
  · exact ((samePeriphery_applied s).trans (samePeriphery_resetState _)).trans (samePeriphery_bypassPrev _ _)
  · exact samePeriphery_applied s

theorem samePorts_unitFrame (u : UnitId) (s : State) (i : Nat) : SamePorts s (unitFrame u s i) := by
  have h := unitFrame_frame u s i
  have ha := congrArg State.audio h
  have hc := congrArg State.control h
  have hm := congrArg State.monitor h
  have hg := congrArg State.granted h
  exact ⟨ha, hc, hm, hg⟩

theorem samePorts_withPairCoefs (f g : FilterId) (c : Coefs) (s : State) : SamePorts s (withPairCoefs f g c s) := by
  constructor <;> simp [withPairCoefs, withFilterCoefs]

theorem samePorts_blockStarted (u : UnitId) (s : State) : SamePorts s (blockStarted u s) := by
  rcases blockStarted_cases u s with e | ⟨c, e⟩ | ⟨c, e⟩ <;> rw [e]
  · exact .refl s
  · exact samePorts_withPairCoefs _ _ c s
  · exact samePorts_withPairCoefs _ _ c s

theorem samePorts_setMeter (s : State) (k : MeterId) (x : F32) : SamePorts s (s.setMeter k x) := by
  constructor <;> simp

/-- No frame and no meter update of a block touches a port. -/
theorem keptByFrames_samePorts (s : State) : KeptByFrames (SamePorts s) where
  start t u h := h.trans (samePorts_blockStarted u t)
  unit t u i h _ := h.trans (samePorts_unitFrame u t i)
  preamp _ _ h _ := h.trans ⟨rfl, rfl, rfl, rfl⟩
  meter t k _ h _ _ := h.trans (samePorts_setMeter t k _)

/-- The effect of a command touches no port; its response alone does (30_encoding.md R101). -/
theorem CommandEffect.samePorts {s u : State} (hu : CommandEffect s u) : SamePorts s u := by
  cases hu
  case none => exact .refl s
  case config r x => constructor <;> simp
  case holder h data => constructor <;> simp
  case write ch i v hi => exact ⟨rfl, rfl, rfl, rfl⟩
  case prepare => exact (samePeriphery_prepare s).samePorts
  case reset => exact (samePeriphery_resetState s).samePorts
  case bypassed hp => exact (samePeriphery_latched s).samePorts
  case block n hp hc => exact (keptByFrames_samePorts s).processFrames hc (samePeriphery_latched s).samePorts

theorem samePorts_setSticky (s : State) (e : Err) : SamePorts s (s.setSticky e) := by
  constructor <;> simp

/-! ## One response, on the port served -/

/-- One response stands on the port served, behind those already there; nothing else on any port changed. -/
def OneResponse (s t : State) : Prop :=
  (∃ r, t.port s.granted = { s.port s.granted with responses := (s.port s.granted).responses ++ [r] }) ∧
    ∀ q, q ≠ s.granted → t.port q = s.port q

theorem oneResponse_send {s u : State} (h : SamePorts s u) (r : RspWord) : OneResponse s (u.send r) := by
  refine ⟨⟨r, ?_⟩, fun q hq => ?_⟩
  · rw [← h.granted, State.send_port, h.port]
  · rw [State.send_port_ne u r (h.granted ▸ hq), h.port]

theorem Answer.oneResponse {s t : State} (h : Answer s t) : OneResponse s t := by
  cases h with
  | refused e => exact oneResponse_send (samePorts_setSticky s e) _
  | performed v hu => exact oneResponse_send hu.samePorts _

/-- A command word that has a next state gives exactly one response (30_encoding.md R101). -/
theorem oneResponse_of_runCommand {w : CmdWord} {s t : State} (h : runCommand w s = .next t) : OneResponse s t :=
  (answers_runCommand w s t h).oneResponse

/-! ## The ports while a command is taken (20_memory.md R78) -/

theorem port_setPort_ne (s : State) {p q : Port} (x : PortIO) (h : q ≠ p) : (s.setPort p x).port q = s.port q := by
  cases p <;> cases q <;> first | rfl | exact absurd rfl h

theorem port_serving (s : State) (p : Port) (n : Nat) (q : Port) :
    { s with granted := p, serial := n }.port q = s.port q := by
  cases q <;> rfl

/-- Settles O10: a command step answers once on the port whose oldest word it took. -/
theorem portOrderKept : Obligations.PortOrderKept := by
  intro s t hd h
  rcases step_cases h with ⟨c, cs, -, hc, -⟩ | ⟨-, hidle, rfl⟩ | ⟨p, w, ws, -, hw, hrun⟩
  · rw [hd] at hc; cases hc
  · exact .inl ⟨rfl, hidle⟩
  · obtain ⟨⟨r, hr⟩, hother⟩ := oneResponse_of_runCommand hrun
    refine .inr ⟨p, w, ws, r, hw, hrun, ?_, fun q hq => ?_⟩
    · rw [hr, port_serving, State.setPort_port]
    · rw [hother q hq, port_serving, port_setPort_ne s _ hq]

end Sys2Proof.Proofs
end

section
/-! Encoding and decoding are inverse to each other (30_encoding.md R100, R103, R105, R106): the word an opcode, a unit or a
filter kind is encoded by, a word as its own fields, and the rows of the tables. -/

namespace Sys2Proof.Proofs

open Sys2Proof Sys2Proof.Machine Sys2Proof.Laws

/-! ## A word from its fields -/

/-- A command word is made of its four fields (R100). -/
theorem mkCmd_fields (w : CmdWord) : mkCmd (opField w) (selField w) (idxField w) (dataField w) = w := by
  unfold mkCmd opField selField idxField dataField
  rw [BitVec.extractLsb'_append_extractLsb'_eq_extractLsb' (show 56 = 48 + 8 from rfl),
    BitVec.extractLsb'_append_extractLsb'_eq_extractLsb' (show 48 = 32 + 16 from rfl),
    BitVec.extractLsb'_append_extractLsb'_eq_extractLsb' (show 32 = 0 + 32 from rfl)]
  exact extract_whole w

/-- A unit's sequencer word is made of its tag and its length, with nothing above them (log 4). -/
theorem mkUnitWord_fields {w : SeqWord} (h : w.extractLsb' 40 104 = 0#104) :
    mkUnitWord (w.extractLsb' 0 8) (w.extractLsb' 8 32) = w := by
  unfold mkUnitWord
  rw [← h, BitVec.extractLsb'_append_extractLsb'_eq_extractLsb' (show 40 = 8 + 32 from rfl),
    BitVec.extractLsb'_append_extractLsb'_eq_extractLsb' (show 8 = 0 + 8 from rfl)]
  exact extract_whole w

/-- A coefficient computation's sequencer word is made of its kind, its filter and its four operands (log 4). -/
theorem mkKindWord_fields (w : SeqWord) :
    mkKindWord (w.extractLsb' 0 8) (w.extractLsb' 8 8) (w.extractLsb' 16 32) (w.extractLsb' 48 32)
      (w.extractLsb' 80 32) (w.extractLsb' 112 32) = w := by
  unfold mkKindWord
  rw [BitVec.extractLsb'_append_extractLsb'_eq_extractLsb' (show 112 = 80 + 32 from rfl),
    BitVec.extractLsb'_append_extractLsb'_eq_extractLsb' (show 80 = 48 + 32 from rfl),
    BitVec.extractLsb'_append_extractLsb'_eq_extractLsb' (show 48 = 16 + 32 from rfl),
    BitVec.extractLsb'_append_extractLsb'_eq_extractLsb' (show 16 = 8 + 8 from rfl),
    BitVec.extractLsb'_append_extractLsb'_eq_extractLsb' (show 8 = 0 + 8 from rfl)]
  exact extract_whole w

/-! ## Codes and what they name -/

theorem opcodeByte_of_opcodeOf {b : BitVec 8} {op : Opcode} (h : opcodeOf b = some op) : opcodeByte op = b :=
  eq_of_beq (List.find?_some (p := fun o => opcodeByte o == b) h)

theorem tagOf_of_unitOfTag {b : BitVec 8} {u : UnitId} (h : unitOfTag b = some u) : tagOf u = b :=
  eq_of_beq (List.find?_some (p := fun u => tagOf u == b) h)

theorem filterByte_of_filterOf {b : BitVec 8} {f : FilterId} (h : filterOf b = some f) : filterByte f = b :=
  eq_of_beq (List.find?_some (p := fun f => filterByte f == b) h)

theorem kindByte_of_kindOf {b : BitVec 8} {k : FilterKind} (h : kindOf b = some k) : kindByte k = b := by
  unfold kindOf at h
  split_ifs at h with h0 h1 h2 h3 <;> cases h
  · exact h0.symm
  · exact h1.symm
  · exact h2.symm
  · exact h3.symm

/-! ## Must-be-zero fields (R103, R107) -/

/-- A must-be-zero column is met: the field is zero where the row says so. -/
def fieldMet {n : Nat} (mbz : Bool) (x : BitVec n) : Prop := mbz = true → x = 0

/-- What an encoding writes into a field: zero where the row says so. -/
def encodedField {n : Nat} (mbz : Bool) (x : BitVec n) : BitVec n := if mbz then 0 else x

theorem encodedField_of_met {n : Nat} {mbz : Bool} {x : BitVec n} (h : fieldMet mbz x) : encodedField mbz x = x := by
  cases mbz
  · rfl
  · exact (h rfl).symm

theorem fieldMet_iff {n : Nat} (mbz : Bool) (x : BitVec n) : fieldMet mbz x ↔ (mbz && x != 0) = false := by
  cases mbz <;> simp [fieldMet]

/-- Check 3 of R107 passes exactly when each field meets its column. -/
theorem mbzBroken_eq_false_iff (op : Opcode) (w : CmdWord) : mbzBroken op w = false ↔
    fieldMet (mustBeZero op).1 (selField w) ∧ fieldMet (mustBeZero op).2.1 (idxField w) ∧
      fieldMet (mustBeZero op).2.2 (dataField w) := by
  simp only [mbzBroken, Bool.or_eq_false_iff, fieldMet_iff, and_assoc]

/-- What a word that decodes to a command looks like. -/
theorem decodeCmd_eq_instr {w : CmdWord} {op : Opcode} {i : Instr} (h : decodeCmd w = .instr op i) :
    opcodeOf (opField w) = some op ∧ mbzBroken op w = false ∧ i = instrOf op w := by
  unfold decodeCmd at h
  split at h
  · cases h
  next op' hop =>
    split at h
    · cases h
    next hz =>
      cases h
      exact ⟨hop, by simpa using hz, rfl⟩

/-! ## The encodings -/

/-- The encoding of a command: its opcode, and the fields its row has (R103). -/
theorem encode_instrOf (op : Opcode) (w : CmdWord) :
    encode (instrOf op w) = some (.cmd (mkCmd (opcodeByte op) (encodedField (mustBeZero op).1 (selField w))
      (encodedField (mustBeZero op).2.1 (idxField w)) (encodedField (mustBeZero op).2.2 (dataField w)))) := by
  cases op <;> rfl

/-- The encoding of a unit's code (R105). -/
theorem encode_unitInstr (u : UnitId) (n : Word) : encode (unitInstr u n) = some (.seq (mkUnitWord (tagOf u) n)) := by
  cases u <;> rfl

/-- The encoding of a filter-kind code (R106). -/
theorem encode_of_kindInstr {k : FilterKind} {f : FilterId} {fc q sr g : F32} {i : Instr}
    (h : kindInstr k f fc q sr g = some i) :
    encode i = some (.seq (mkKindWord (kindByte k) (filterByte f) fc q sr g)) := by
  cases k <;> simp only [kindInstr, Option.ite_none_right_eq_some, Option.some.injEq] at h
  case ls => subst h; rfl
  all_goals obtain ⟨rfl, rfl⟩ := h; rfl

/-! ## Decoding an encoding -/

/-- The laws of the single instructions (Laws/PerInstr.lean); an INTERNAL row has no encoding (R113). -/
theorem decode_of_encode : (i : Instr) → EncodeDecode.Statement i
  | .nop => EncodeDecode.nop
  | .setcfg sel data => EncodeDecode.setcfg sel data
  | .getcfg sel => EncodeDecode.getcfg sel
  | .prepare => EncodeDecode.prepare
  | .reset => EncodeDecode.reset
  | .process n => EncodeDecode.process n
  | .wrbuf sel idx data => EncodeDecode.wrbuf sel idx data
  | .rdbuf sel idx => EncodeDecode.rdbuf sel idx
  | .getstatus => EncodeDecode.getstatus
  | .setparam sel data => EncodeDecode.setparam sel data
  | .getparam sel => EncodeDecode.getparam sel
  | .getmeter sel => EncodeDecode.getmeter sel
  | .unitEmber n => EncodeDecode.unitEmber n
  | .unitVelvet n => EncodeDecode.unitVelvet n
  | .unitDrift n => EncodeDecode.unitDrift n
  | .unitEcho n => EncodeDecode.unitEcho n
  | .unitHaze n => EncodeDecode.unitHaze n
  | .unitFracture n => EncodeDecode.unitFracture n
  | .unitPrism n => EncodeDecode.unitPrism n
  | .unitPhase n => EncodeDecode.unitPhase n
  | .unitCascade n => EncodeDecode.unitCascade n
  | .unitGlisten n => EncodeDecode.unitGlisten n
  | .unitScorch n => EncodeDecode.unitScorch n
  | .unitSnarl n => EncodeDecode.unitSnarl n
  | .unitShred n => EncodeDecode.unitShred n
  | .unitGrind n => EncodeDecode.unitGrind n
  | .unitRust n => EncodeDecode.unitRust n
  | .bqSetcLp f fc q sr => EncodeDecode.bqSetcLp f fc q sr
  | .bqSetcHp f fc q sr => EncodeDecode.bqSetcHp f fc q sr
  | .bqSetcBp f fc q sr => EncodeDecode.bqSetcBp f fc q sr
  | .bqSetcLs f fc q sr g => EncodeDecode.bqSetcLs f fc q sr g
  | .svReset .. | .svSnap .. | .svSettarget .. | .svNext .. | .svCurrent .. | .bqProcess .. | .bqReset .. | .bqSetc ..
  | .dlSize .. | .dlClear .. | .dlWrite .. | .dlReadi .. | .dlReadf .. | .dlAdvance .. | .hardclip .. | .xfmrSat ..
  | .softclip .. | .emberShape .. | .quant .. | .lfoAdvance .. | .lfoSine .. | .lfoTri .. | .envCoef .. | .envStep ..
  | .gate .. | .meterUpdate .. | .db2lin .. | .rectify .. | .xfade .. | .unitProcess .. | .unitSetmix .. | .unitPrepare
  | .unitReset | .preamp .. | .preampSetshelf .. | .applyParams | .resetState | .size => nofun

/-- Settles O2: the laws of the single instructions, and the encoding of every command, unit code and kind code. -/
theorem decodeOfEncode : Obligations.DecodeOfEncode := by
  refine ⟨decode_of_encode, fun op w => ?_, fun u n => ?_, fun f fc q sr g => ⟨nofun, nofun, nofun, nofun⟩⟩
  · rw [encode_instrOf]
    exact Option.some_ne_none _
  · rw [encode_unitInstr]
    exact Option.some_ne_none _

/-! ## Encoding what was decoded -/

/-- A command word is the encoding of what it decodes to: its must-be-zero fields are zero (R107). -/
theorem encode_of_decodeCmd {w : CmdWord} {op : Opcode} {i : Instr} (h : decodeCmd w = .instr op i) :
    encode i = some (.cmd w) := by
  obtain ⟨hop, hz, rfl⟩ := decodeCmd_eq_instr h
  obtain ⟨hsel, hidx, hdata⟩ := (mbzBroken_eq_false_iff op w).mp hz
  rw [encode_instrOf, encodedField_of_met hsel, encodedField_of_met hidx, encodedField_of_met hdata,
    opcodeByte_of_opcodeOf hop, mkCmd_fields]

/-- A sequencer word is the encoding of what it decodes to (R105, R106). -/
theorem encode_of_decodeSeq {w : SeqWord} {i : Instr} (h : decodeSeq w = some i) : encode i = some (.seq w) := by
  unfold decodeSeq at h
  split at h
  next u hu =>
    obtain ⟨hz, hi⟩ := Option.ite_none_right_eq_some.mp h
    cases hi
    rw [encode_unitInstr, tagOf_of_unitOfTag hu, mkUnitWord_fields hz]
  next =>
    split at h
    next k f hk hf =>
      rw [encode_of_kindInstr h, kindByte_of_kindOf hk, filterByte_of_filterOf hf, mkKindWord_fields]
    next => cases h

/-- Settles O3: a command word by its fields, a sequencer word by its code. -/
theorem encodeOfDecode : Obligations.EncodeOfDecode := by
  intro c i h
  cases c with
  | cmd w =>
    obtain ⟨op, hw⟩ := decodeCmd_of_decode h
    exact encode_of_decodeCmd hw
  | seq w => exact encode_of_decodeSeq h

/-! ## The tables -/

/-- A row of the opcode table is read off the encoding of its instruction. -/
theorem decodeTableWord_of_encode {nbits w : Nat} {i : Instr}
    (h : encode i = some (if nbits ≤ 8 then .seq (BitVec.ofNat 144 (w % 2 ^ nbits))
      else .cmd (BitVec.ofNat 64 (w % 2 ^ nbits)))) : decodeTableWord nbits w = some i := by
  unfold decodeTableWord
  split_ifs at h ⊢
  · exact decode_of_encode i _ h
  · exact decode_of_encode i _ h

/-- Settles O1: the nine words with a meaning are encodings; the other three are an opcode with a must-be-zero field set,
a reserved opcode and a byte that is no tag. -/
theorem commandWordsDecode : Obligations.CommandWordsDecode := by
  refine ⟨?_, ?_, ?_, ?_, ?_, ?_, ?_, ?_, ?_, ?_, ?_, ?_⟩
  case refine_7 | refine_8 | refine_11 => decide
  all_goals exact decodeTableWord_of_encode (by decide)

/-- Settles O5, entry by entry. -/
theorem chainTable : Obligations.ChainTable := by
  intro f c
  cases f <;> cases c <;> rfl

end Sys2Proof.Proofs
end

section
/-! The check order of a command word (30_encoding.md R107): the columns of R103, R104 and R312 are the model's own checks, and
a command word is answered by its first failing check. -/

namespace Sys2Proof.Proofs

open Sys2Proof Sys2Proof.Machine Sys2Proof.Safety Sys2Proof.Laws

/-! ## The rows of R103 -/

/-- The row of a word is the row of its opcode. -/
theorem rowOf_eq_opcodeOf (w : CmdWord) : rowOf w = opcodeOf (opField w) := by
  have hbyte : ∀ op, opField (rowMatch op) = opcodeByte op := fun op => by cases op <;> rfl
  simp only [rowOf, hbyte]
  rfl

/-- The reserved opcodes (R107). -/
theorem opcodeOf_eq_none_iff (b : BitVec 8) : opcodeOf b = none ↔
    (0x09 ≤ b.toNat ∧ b.toNat ≤ 0x0F) ∨ (0x12 ≤ b.toNat ∧ b.toNat ≤ 0x1F) ∨ 0x21 ≤ b.toNat := by
  simp only [opcodeOf, List.find?_eq_none, List.forall_mem_cons, opcodeByte, beq_iff_eq, ← BitVec.toNat_inj,
    BitVec.toNat_ofNat]
  have hb : b.toNat < 256 := b.isLt
  constructor
  · omega
  · intro h
    refine ⟨?_, ?_, ?_, ?_, ?_, ?_, ?_, ?_, ?_, ?_, ?_, ?_, nofun⟩ <;> omega

/-- The mask of a field: all ones where its column says zero. -/
def fieldMask {n : Nat} (mbz : Bool) : BitVec n := if mbz then BitVec.allOnes n else 0

theorem and_fieldMask_eq_zero_iff {n : Nat} (mbz : Bool) (x : BitVec n) :
    x &&& fieldMask mbz = 0 ↔ fieldMet mbz x := by
  cases mbz <;> simp [fieldMask, fieldMet]

theorem rowMask_eq_mkCmd (op : Opcode) : rowMask op = mkCmd (BitVec.allOnes 8) (fieldMask (mustBeZero op).1)
    (fieldMask (mustBeZero op).2.1) (fieldMask (mustBeZero op).2.2) := by
  cases op <;> rfl

theorem rowMatch_eq_mkCmd (op : Opcode) : rowMatch op = mkCmd (opcodeByte op) 0 0 0 := by
  cases op <;> rfl

theorem mkCmd_and (op sel op' sel' : BitVec 8) (idx idx' : BitVec 16) (data data' : Word) :
    mkCmd op sel idx data &&& mkCmd op' sel' idx' data' =
      mkCmd (op &&& op') (sel &&& sel') (idx &&& idx') (data &&& data') := by
  change (op ++ sel ++ idx ++ data : BitVec (8 + 8 + 16 + 32)) &&& (op' ++ sel' ++ idx' ++ data') = _
  rw [BitVec.and_append, BitVec.and_append, BitVec.and_append]
  rfl

theorem mkCmd_inj {op sel op' sel' : BitVec 8} {idx idx' : BitVec 16} {data data' : Word} :
    mkCmd op sel idx data = mkCmd op' sel' idx' data' ↔ op = op' ∧ sel = sel' ∧ idx = idx' ∧ data = data' := by
  constructor
  · intro h
    exact ⟨by simpa using congrArg opField h, by simpa using congrArg selField h, by simpa using congrArg idxField h,
      by simpa using congrArg dataField h⟩
  · rintro ⟨rfl, rfl, rfl, rfl⟩
    rfl

/-- The columns `match` and `mask` say what the must-be-zero columns say (R103). -/
theorem mask_check_eq_mbzBroken {op : Opcode} {w : CmdWord} (h : opcodeOf (opField w) = some op) :
    ((w &&& rowMask op) != rowMatch op) = mbzBroken op w := by
  have key : w &&& rowMask op = rowMatch op ↔ mbzBroken op w = false := by
    conv_lhs => rw [← mkCmd_fields w]
    rw [rowMask_eq_mkCmd, rowMatch_eq_mkCmd, mkCmd_and, mkCmd_inj, BitVec.and_allOnes, opcodeByte_of_opcodeOf h,
      mbzBroken_eq_false_iff]
    simp only [true_and, and_fieldMask_eq_zero_iff]
  rw [Bool.eq_iff_iff, bne_iff_ne, Ne, key, Bool.not_eq_false]

/-! ## The ports of R312 and the selectors of R104 -/

theorem contains_rights (op : Opcode) (p : Port) : (rights op).contains p = mayIssue op p := by
  cases op <;> cases p <;> rfl

theorem isSome_cfgOfSel (sel : BitVec 8) : (cfgOfSel sel).isSome = decide (sel.toNat ≤ 2) := by
  unfold cfgOfSel
  split_ifs
  case neg => exact (decide_eq_false (by bv_omega)).symm
  all_goals subst sel; rfl

theorem isSome_meterOfSel (sel : BitVec 8) : (meterOfSel sel).isSome = decide (sel.toNat ≤ 3) := by
  unfold meterOfSel
  split_ifs
  case neg => exact (decide_eq_false (by bv_omega)).symm
  all_goals subst sel; rfl

theorem isSome_channelOfSel (sel : BitVec 8) : (channelOfSel sel).isSome = decide (sel.toNat ≤ 1) := by
  unfold channelOfSel
  split_ifs
  case neg => exact (decide_eq_false (by bv_omega)).symm
  all_goals subst sel; rfl

/-- The unit tags are the last fifteen selectors of the holders (10_state.md R33, 30_encoding.md R105). -/
theorem isSome_unitOfTag (b : BitVec 8) : (unitOfTag b).isSome = (allUnits.map tagOf).contains b := by
  rw [unitOfTag, List.isSome_find?, List.contains_eq_any_beq, List.any_map]
  congr 1
  funext u
  exact Bool.beq_comm

theorem isSome_holderOfSel (sel : BitVec 8) : (holderOfSel sel).isSome = (holderTable.map (·.1)).contains sel := by
  have htable : holderTable.map (·.1) = [0x00#8, 0x01#8, 0x02#8, 0x03#8, 0x04#8] ++ allUnits.map tagOf := rfl
  rw [htable, List.contains_append, ← isSome_unitOfTag]
  unfold holderOfSel
  split_ifs <;> simp [*]

/-! ## The first failing check -/

/-- The refusal of the first check that fails. -/
def firstFailing (cs : List (Err × Bool)) : Option Err := (cs.find? (·.2)).map (·.1)

theorem firstFailing_eq_none_iff {cs : List (Err × Bool)} : firstFailing cs = none ↔ ∀ c ∈ cs, c.2 = false := by
  simp [firstFailing]

theorem firstError_of_reserved {w : CmdWord} {s : State} (h : opcodeOf (opField w) = none) :
    firstError w s = some .illegal := by
  simp only [firstError, rowOf_eq_opcodeOf, h]

theorem firstError_of_opcode {w : CmdWord} {s : State} {op : Opcode} (h : opcodeOf (opField w) = some op) :
    firstError w s = firstFailing (checks op w s) := by
  simp only [firstError, rowOf_eq_opcodeOf, h, firstFailing]

/-- An outcome is what the first failing check makes it: that refusal and nothing else; with no failing check, every next
state it has is the effect of a command and an OK response. -/
def AnswersCheck (s : State) : Option Err → Out → Prop
  | some e, o => o = .next (raise e s)
  | none, o => ∀ t, o = .next t → ∃ u v, CommandEffect s u ∧ t = u.respond v

section
variable {s : State} {cs : List (Err × Bool)} {o : Out}

theorem answersCheck_respond {u : State} (hu : CommandEffect s u) (v : Word) :
    AnswersCheck s none (.next (u.respond v)) := fun _ h =>
  ⟨u, v, hu, (Host.Outcome.next.inj h).symm⟩

theorem answersCheck_refused (r : Refusal) : AnswersCheck s none (.refused r) := by
  intro _ h
  cases h

/-- A check that does not fail is passed over. -/
theorem answersCheck_pass (e : Err) (h : AnswersCheck s (firstFailing cs) o) :
    AnswersCheck s (firstFailing ((e, false) :: cs)) o := h

/-- A check the model makes by a test. -/
theorem answersCheck_test {e : Err} {b : Bool} {c : Prop} [Decidable c] (hb : b = true ↔ c)
    (h : ¬ c → AnswersCheck s (firstFailing cs) o) :
    AnswersCheck s (firstFailing ((e, b) :: cs)) (if c then .next (raise e s) else o) := by
  by_cases hc : c
  · rw [if_pos hc, hb.mpr hc]
    rfl
  · rw [if_neg hc, Bool.eq_false_iff.mpr (mt hb.mp hc)]
    exact h hc

/-- The port check (60_exceptions.md R312). -/
theorem answersCheck_onPort {op : Opcode} (h : AnswersCheck s (firstFailing cs) o) :
    AnswersCheck s (firstFailing ((.port, !(rights op).contains s.granted) :: cs)) (onPort op s o) := by
  rw [contains_rights]
  rcases onPort_cases op s o with ⟨hp, e⟩ | ⟨hp, e⟩ <;> rw [hp, e]
  · exact h
  · rfl

end

/-- PROCESS after its checks answers OK in the state its latch and its frames made (40_host_commands.md R135). -/
theorem answersCheck_processBlock {n : Nat} {s : State} (hp : s.status.prepared = true) :
    AnswersCheck s none (finishBlock (processBlock n s)) := by
  intro t h
  obtain ⟨ht, hc⟩ := finishBlock_next h
  have hw : ∀ u : State, Writer (pure (u.respond 0) : Calc State) := fun _ => Writer.pure _
  have hw' := fun t => Writer.bind (writer_processFrames n t) hw
  by_cases hb : latchedBypass s = true
  · rw [processBlock_bypassed n hb, valueOf_bind _ hw, valueOf_pure] at ht
    exact ⟨latched s, 0, .bypassed hp, ht⟩
  · rw [processBlock_sounding n hb] at ht hc
    rw [valueOf_bind _ hw', valueOf_bind _ hw, valueOf_pure] at ht
    exact ⟨_, 0, .block n hp (clean_bind hw (clean_bind hw' hc).2).1, ht⟩

/-- The checks of R107 that are not the decoder's: the meaning of each command makes the port check and those of its own
row, in the order of R107; the checks of other rows cannot fail. -/
theorem answersCheck_exec (op : Opcode) (w : CmdWord) (s : State) (hz : ((w &&& rowMask op) != rowMatch op) = false) :
    AnswersCheck s (firstFailing (checks op w s)) (exec (instrOf op w) s) := by
  unfold checks
  rw [hz]
  cases op
  case nop => exact answersCheck_onPort (op := .nop) (answersCheck_respond .none _)
  case getstatus => exact answersCheck_onPort (op := .getstatus) (answersCheck_respond .none _)
  all_goals refine answersCheck_onPort (answersCheck_pass .illegal ?_)
  case prepare => exact answersCheck_respond .prepare _
  case setcfg =>
    rw [selLegal, ← isSome_cfgOfSel]
    cases cfgOfSel (selField w) with
    | none => rfl
    | some r => exact answersCheck_respond (.config r _) _
  case getcfg =>
    rw [selLegal, ← isSome_cfgOfSel]
    cases cfgOfSel (selField w) with
    | none => rfl
    | some r => exact answersCheck_respond .none _
  case setparam =>
    rw [selLegal, ← isSome_holderOfSel]
    cases holderOfSel (selField w) with
    | none => rfl
    | some h => exact answersCheck_respond (.holder h _) _
  case getparam =>
    rw [selLegal, ← isSome_holderOfSel]
    cases holderOfSel (selField w) with
    | none => rfl
    | some h => exact answersCheck_respond .none _
  case getmeter =>
    rw [selLegal, ← isSome_meterOfSel]
    cases meterOfSel (selField w) with
    | none => rfl
    | some k => exact answersCheck_respond .none _
  case reset =>
    cases hp : s.status.prepared with
    | true => exact answersCheck_respond .reset _
    | false => rfl
  case process =>
    refine answersCheck_pass .sel (answersCheck_pass .index (answersCheck_test Iff.rfl fun hp => ?_))
    refine answersCheck_test decide_eq_true_iff fun _ => ?_
    exact answersCheck_processBlock (by simpa using hp)
  case wrbuf =>
    rw [selLegal, ← isSome_channelOfSel]
    cases channelOfSel (selField w) with
    | none => rfl
    | some ch =>
      refine answersCheck_pass .sel (answersCheck_test decide_eq_true_iff fun hi => ?_)
      exact answersCheck_respond (.write ch _ _ (Nat.not_le.mp hi)) _
  case rdbuf =>
    rw [selLegal, ← isSome_channelOfSel]
    cases channelOfSel (selField w) with
    | none => rfl
    | some ch =>
      refine answersCheck_pass .sel (answersCheck_test decide_eq_true_iff fun _ => ?_)
      split
      · exact answersCheck_refused _
      · exact answersCheck_respond .none _

/-- The first failing check of R107 decides what a command word does. -/
theorem answersCheck_runCommand (w : CmdWord) (s : State) : AnswersCheck s (firstError w s) (runCommand w s) := by
  cases hop : opcodeOf (opField w) with
  | none =>
    rw [firstError_of_reserved hop]
    simp only [AnswersCheck, runCommand, decodeCmd, hop]
  | some op =>
    rw [firstError_of_opcode hop]
    have hmask := mask_check_eq_mbzBroken hop
    cases hz : mbzBroken op w with
    | true =>
      have hrun : runCommand w s = onPort op s (.next (raise .illegal s)) := by simp [runCommand, decodeCmd, hop, hz]
      rw [hrun, checks, hmask, hz]
      exact answersCheck_onPort rfl
    | false =>
      have hrun : runCommand w s = exec (instrOf op w) s := by simp [runCommand, decodeCmd, hop, hz]
      rw [hrun]
      exact answersCheck_exec op w s (hmask.trans hz)

/-- A word none of whose checks fails is an instruction. -/
theorem decodeCmd_of_firstError_none {w : CmdWord} {s : State} (h : firstError w s = none) :
    ∃ op, decodeCmd w = .instr op (instrOf op w) := by
  cases hop : opcodeOf (opField w) with
  | none => rw [firstError_of_reserved hop] at h; cases h
  | some op =>
    rw [firstError_of_opcode hop, firstFailing_eq_none_iff] at h
    have hz : mbzBroken op w = false := (mask_check_eq_mbzBroken hop).symm.trans (h _ (.tail _ (.head _)))
    exact ⟨op, by simp [decodeCmd, hop, hz]⟩

/-- The response of a performed command stands on the port that issued it (30_encoding.md R101). -/
theorem CommandEffect.responses {s u : State} (hu : CommandEffect s u) (v : Word) :
    ((u.respond v).port s.granted).responses = (s.port s.granted).responses ++ [rspWord 0 v] := by
  have h := hu.samePorts
  rw [State.respond, ← h.granted, State.send_port, h.port]

/-- Settles O4: a failing check is the refusal it names; with none the word runs as its instruction. -/
theorem checkOrder : Obligations.CheckOrder := by
  refine ⟨fun w s e he => ?_, fun w s hnone => ⟨?_, fun t ht => ?_⟩, fun w => ?_⟩
  · have h := answersCheck_runCommand w s
    rw [he] at h
    exact h
  · obtain ⟨op, hop⟩ := decodeCmd_of_firstError_none hnone
    exact ⟨op, _, hop, by simp only [runCommand, hop]⟩
  · have h := answersCheck_runCommand w s
    rw [hnone] at h
    obtain ⟨u, v, hu, rfl⟩ := h t ht
    exact ⟨v, hu.responses v⟩
  · rw [rowOf_eq_opcodeOf]
    exact opcodeOf_eq_none_iff (opField w)

end Sys2Proof.Proofs
end

section
/-! The commands that only answer or store one word (40_host_commands.md R130 to R132, R136 to R141): what a selector names, and
one equation for each command on a port that may issue it. -/

namespace Sys2Proof.Proofs

open Sys2Proof Sys2Proof.Machine Sys2Proof.Safety

/-! ## What a selector names (30_encoding.md R104) -/

theorem cfgOfSel_of_mem : ∀ x ∈ cfgTable, cfgOfSel x.1 = some x.2 := by decide

theorem meterOfSel_of_mem : ∀ x ∈ meterTable, meterOfSel x.1 = some x.2 := by decide

theorem channelOfSel_of_mem : ∀ x ∈ channelTable, channelOfSel x.1 = some x.2 := by decide

theorem holderOfSel_of_mem : ∀ x ∈ holderTable, holderOfSel x.1 = some x.2 := by decide

theorem cfgOfSel_eq_none {sel : BitVec 8} (h : 2 < sel.toNat) : cfgOfSel sel = none := by
  rw [← Option.not_isSome_iff_eq_none, isSome_cfgOfSel, decide_eq_true_iff]
  omega

theorem meterOfSel_eq_none {sel : BitVec 8} (h : 3 < sel.toNat) : meterOfSel sel = none := by
  rw [← Option.not_isSome_iff_eq_none, isSome_meterOfSel, decide_eq_true_iff]
  omega

theorem channelOfSel_eq_none {sel : BitVec 8} (h : 1 < sel.toNat) : channelOfSel sel = none := by
  rw [← Option.not_isSome_iff_eq_none, isSome_channelOfSel, decide_eq_true_iff]
  omega

theorem holderOfSel_eq_none {sel : BitVec 8} (h : sel ∉ holderTable.map (·.1)) : holderOfSel sel = none := by
  rw [← Option.not_isSome_iff_eq_none, isSome_holderOfSel]
  simpa using h

/-! ## One register by its selector

A selector that names nothing raises E_SEL. -/

section
variable {s : State}

theorem exec_getcfg (hp : mayIssue .getcfg s.granted = true) (sel : BitVec 8) :
    exec (.getcfg sel) s = (cfgOfSel sel).elim (.next (raise .sel s)) fun r => .next (s.respond (s.cfgReg r)) := by
  refine (onPort_allowed hp _).trans ?_
  cases cfgOfSel sel <;> rfl

theorem exec_setcfg (hp : mayIssue .setcfg s.granted = true) (sel : BitVec 8) (data : Word) :
    exec (.setcfg sel data) s =
      (cfgOfSel sel).elim (.next (raise .sel s)) fun r => .next ((s.setCfg r data).respond 0) := by
  refine (onPort_allowed hp _).trans ?_
  cases cfgOfSel sel <;> rfl

theorem exec_getparam (hp : mayIssue .getparam s.granted = true) (sel : BitVec 8) :
    exec (.getparam sel) s = (holderOfSel sel).elim (.next (raise .sel s)) fun k => .next (s.respond (s.holder k)) := by
  refine (onPort_allowed hp _).trans ?_
  cases holderOfSel sel <;> rfl

theorem exec_setparam (hp : mayIssue .setparam s.granted = true) (sel : BitVec 8) (data : Word) :
    exec (.setparam sel data) s =
      (holderOfSel sel).elim (.next (raise .sel s)) fun k => .next ((s.setHolder k (legalise k data)).respond 0) := by
  refine (onPort_allowed hp _).trans ?_
  cases holderOfSel sel <;> rfl

theorem exec_getmeter (hp : mayIssue .getmeter s.granted = true) (sel : BitVec 8) :
    exec (.getmeter sel) s = (meterOfSel sel).elim (.next (raise .sel s)) fun k => .next (s.respond (s.meter k)) := by
  refine (onPort_allowed hp _).trans ?_
  cases meterOfSel sel <;> rfl

end

/-- Settles O13: each command that only answers, on a port that may issue it. -/
theorem readCommands : Obligations.ReadCommands := by
  intro s
  refine ⟨onPort_allowed (op := .nop) (s := s) rfl _, onPort_allowed (op := .getstatus) (s := s) rfl _, fun hg => ?_, fun hg => ?_,
    fun hg => ?_⟩
  · have hp : mayIssue .getcfg s.granted = true := by rw [hg]; rfl
    refine ⟨fun x hx => ?_, fun sel h => ?_⟩
    · rw [exec_getcfg hp, cfgOfSel_of_mem x hx, Option.elim_some]
    · rw [exec_getcfg hp, cfgOfSel_eq_none h, Option.elim_none]
  · have hp : mayIssue .getparam s.granted = true := by
      revert hg
      cases s.granted <;> decide
    refine ⟨fun x hx => ?_, fun sel h => ?_⟩
    · rw [exec_getparam hp, holderOfSel_of_mem x hx, Option.elim_some]
    · rw [exec_getparam hp, holderOfSel_eq_none h, Option.elim_none]
  · have hp : mayIssue .getmeter s.granted = true := by
      revert hg
      cases s.granted <;> decide
    refine ⟨fun x hx => ?_, fun sel h => ?_⟩
    · rw [exec_getmeter hp, meterOfSel_of_mem x hx, Option.elim_some]
    · rw [exec_getmeter hp, meterOfSel_eq_none h, Option.elim_none]

/-- Settles O14: SETCFG on the audio port. -/
theorem setcfgStores : Obligations.SetcfgStores := by
  intro s hg
  have hp : mayIssue .setcfg s.granted = true := by rw [hg]; rfl
  refine ⟨fun x hx data => ?_, fun sel data h => ?_⟩
  · rw [exec_setcfg hp, cfgOfSel_of_mem x hx, Option.elim_some]
  · rw [exec_setcfg hp, cfgOfSel_eq_none h, Option.elim_none]

/-! ## Legal parameter words (40_host_commands.md R136) -/

/-- The legalisation of each of the twenty selectors, by the selector. -/
theorem legalise_of_mem (data : Word) : ∀ x ∈ holderTable, legalise x.2 data =
    if x.1 = 0x03#8 then (if data ≠ 0 then 1 else 0)
    else if x.1 = 0x04#8 then (if 2 < data.toNat then 2 else data)
    else if isNaN data then 0
    else if fLt data k0 then k0 else if fLt k1 data then k1 else data := by
  simp only [holderTable, List.forall_mem_cons]
  exact ⟨rfl, rfl, rfl, rfl, rfl, rfl, rfl, rfl, rfl, rfl, rfl, rfl, rfl, rfl, rfl, rfl, rfl, rfl, rfl, rfl, nofun⟩

/-- Settles O16: SETPARAM on the control port, with the legalisation of its selector. -/
theorem setparamStores : Obligations.SetparamStores := by
  intro s hg
  have hp : mayIssue .setparam s.granted = true := by rw [hg]; rfl
  refine ⟨fun x hx data => ?_, fun sel data h => ?_⟩
  · rw [exec_setparam hp, holderOfSel_of_mem x hx, Option.elim_some, legalise_of_mem data x hx]
  · rw [exec_setparam hp, holderOfSel_eq_none h, Option.elim_none]

/-! ## The sample buffer (R140, R141) -/

section
variable {s : State}

theorem exec_wrbuf (hp : mayIssue .wrbuf s.granted = true) (sel : BitVec 8) (idx : BitVec 16) (data : Word) :
    exec (.wrbuf sel idx data) s =
      (channelOfSel sel).elim (.next (raise .sel s)) fun ch =>
        if 8192 ≤ idx.toNat then .next (raise .index s)
        else .next (State.respond { s with buf := s.buf.set ch idx.toNat data } 0) := by
  refine (onPort_allowed hp _).trans ?_
  cases channelOfSel sel <;> rfl

/-- A word nothing has written is not answered (10_state.md R49, 93_implementation_defined.md U4; log 13). -/
theorem exec_rdbuf (hp : mayIssue .rdbuf s.granted = true) (sel : BitVec 8) (idx : BitVec 16) :
    exec (.rdbuf sel idx) s =
      (channelOfSel sel).elim (.next (raise .sel s)) fun ch =>
        if 8192 ≤ idx.toNat then .next (raise .index s)
        else (s.buf.get? ch idx.toNat).elim (.refused .unwrittenWord) fun w => .next (s.respond w) := by
  refine (onPort_allowed hp _).trans ?_
  cases channelOfSel sel with
  | none => rfl
  | some ch =>
    dsimp only [Option.elim_some]
    cases s.buf.get? ch idx.toNat <;> rfl

end

/-- A write of the buffer leaves every other word of both channels (20_memory.md R71). -/
theorem get?_set_ne (b : SampleBuffer) {ch ch' : Channel} {i j : Nat} (v : Word) (h : (ch', j) ≠ (ch, i)) :
    (b.set ch i v).get? ch' j = b.get? ch' j := by
  by_cases hj : j = i
  · have hch : ch' ≠ ch := fun hc => h (by rw [hc, hj])
    exact SampleBuffer.get?_set_chan b i j v hch
  · exact SampleBuffer.get?_set_index b ch ch' v hj

/-- Settles O15: WRBUF and RDBUF on the audio port, and the law of the buffer they use. -/
theorem bufferCommands : Obligations.BufferCommands := by
  refine ⟨fun s hg x hx idx data => ?_, fun s hg sel idx data h => ?_,
    fun b ch i v => ⟨SampleBuffer.get?_set b ch i v, fun _ _ h => get?_set_ne b v h⟩⟩
  all_goals
    have hw : mayIssue .wrbuf s.granted = true := by rw [hg]; rfl
    have hr : mayIssue .rdbuf s.granted = true := by rw [hg]; rfl
    rw [exec_wrbuf hw, exec_rdbuf hr]
  · rw [channelOfSel_of_mem x hx, Option.elim_some, Option.elim_some]
    refine ⟨fun hi => ?_, fun hi => ⟨if_pos hi, if_pos hi⟩⟩
    rw [if_neg (Nat.not_le.mpr hi), if_neg (Nat.not_le.mpr hi)]
    exact ⟨rfl, fun w hheld => by rw [hheld, Option.elim_some], fun hnone => by rw [hnone, Option.elim_none]⟩
  · rw [channelOfSel_eq_none h]
    exact ⟨rfl, rfl⟩

end Sys2Proof.Proofs
end

section
/-! The internal sequences on the whole state (40_host_commands.md R142 to R144): APPLY_PARAMS changes the smoothers and the
family only, RESET_STATE and SIZE the preamp, the units and the meters only. -/

namespace Sys2Proof.Proofs

open Sys2Proof Sys2Proof.Machine Sys2Proof.Safety

/-! ## APPLY_PARAMS (R142) and the latch of PROCESS (R135) -/

theorem setSmoother_self (s : State) (v : SmootherId) : s.setSmoother v (s.smoother v) = s := by
  cases v with
  | mix u => cases u <;> rfl
  | _ => rfl

theorem setSmoother_setSmoother (s : State) (v : SmootherId) (x y : Smoother) :
    (s.setSmoother v x).setSmoother v y = s.setSmoother v y := by
  cases v with
  | mix u => cases u <;> rfl
  | _ => rfl

theorem setSmoother_comm (s : State) {v w : SmootherId} (x y : Smoother) (h : w ≠ v) :
    (s.setSmoother v x).setSmoother w y = (s.setSmoother w y).setSmoother v x := by
  cases v with
  | mix u =>
    cases w with
    | mix u' => cases u <;> cases u' <;> first | rfl | exact absurd rfl h
    | _ => cases u <;> rfl
  | _ =>
    cases w with
    | mix u' => cases u' <;> rfl
    | _ => first | rfl | exact absurd rfl h

theorem setSmoother_setFamily (s : State) (f : Family) (v : SmootherId) (x : Smoother) :
    { s with family := f }.setSmoother v x = { s.setSmoother v x with family := f } := by
  cases v with
  | mix u => cases u <;> rfl
  | _ => rfl

/-- The listed smoothers put back as they are in `s`. -/
def restored (s : State) (vs : List SmootherId) (t : State) : State :=
  vs.foldl (fun a v => a.setSmoother v (s.smoother v)) t

/-- A smoother that is put back may have been anything. -/
theorem restored_setSmoother (s : State) {vs : List SmootherId} {v : SmootherId} (hv : v ∈ vs) (t : State)
    (x : Smoother) : restored s vs (t.setSmoother v x) = restored s vs t := by
  induction vs generalizing t with
  | nil => cases hv
  | cons w vs ih =>
    change restored s vs ((t.setSmoother v x).setSmoother w _) = restored s vs (t.setSmoother w _)
    by_cases hw : w = v
    · rw [hw, setSmoother_setSmoother]
    · rw [setSmoother_comm t x _ hw, ih (List.mem_of_ne_of_mem (Ne.symm hw) hv)]

theorem restored_setFamily (s : State) (vs : List SmootherId) (t : State) (f : Family) :
    restored s vs { t with family := f } = { restored s vs t with family := f } := by
  induction vs generalizing t with
  | nil => rfl
  | cons v vs ih =>
    change restored s vs ({ t with family := f }.setSmoother v _) = _
    rw [setSmoother_setFamily, ih]
    rfl

theorem restored_self (s : State) (vs : List SmootherId) : restored s vs s = s := by
  induction vs with
  | nil => rfl
  | cons v vs ih =>
    change restored s vs (s.setSmoother v _) = s
    rw [setSmoother_self, ih]

theorem mem_allSmoothers (v : SmootherId) : v ∈ allSmoothers := by
  cases v with
  | mix u => cases u <;> decide
  | _ => decide

/-- With every smoother put back, it does not matter what one of them was. -/
theorem smoothersFrom_setSmoother (s t : State) (v : SmootherId) (x : Smoother) :
    smoothersFrom s (t.setSmoother v x) = smoothersFrom s t := restored_setSmoother s (mem_allSmoothers v) t x

theorem smoothersFrom_setFamily (s t : State) (f : Family) :
    smoothersFrom s { t with family := f } = { smoothersFrom s t with family := f } := restored_setFamily s _ t f

theorem smoothersFrom_self (s : State) : smoothersFrom s s = s := restored_self s _

theorem smoothersFrom_foldl_retargeted (s : State) (h : Holders) (us : List UnitId) (t : State) :
    smoothersFrom s (us.foldl (fun t u => retargeted (.mix u) (h.get (.mix u)) t) t) = smoothersFrom s t := by
  induction us generalizing t with
  | nil => rfl
  | cons u us ih => rw [List.foldl_cons, ih, retargeted, smoothersFrom_setSmoother]

/-- APPLY_PARAMS changes the smoothers and the family only. -/
theorem smoothersFrom_applied (s : State) :
    smoothersFrom s (applied s) = { s with family := familyOf s.holders.preampType } := by
  unfold applied
  rw [smoothersFrom_foldl_retargeted, smoothersFrom_setFamily]
  simp only [retargeted, smoothersFrom_setSmoother, smoothersFrom_self]

theorem family_foldl_retargeted (h : Holders) (us : List UnitId) (t : State) :
    (us.foldl (fun t u => retargeted (.mix u) (h.get (.mix u)) t) t).family = t.family := by
  induction us generalizing t with
  | nil => rfl
  | cons u us ih => rw [List.foldl_cons, ih, retargeted, State.setSmoother_family]

theorem family_applied (s : State) : (applied s).family = familyOf s.holders.preampType :=
  family_foldl_retargeted _ _ _

theorem bypassPrev_foldl_retargeted (h : Holders) (us : List UnitId) (t : State) :
    (us.foldl (fun t u => retargeted (.mix u) (h.get (.mix u)) t) t).bypassPrev = t.bypassPrev := by
  induction us generalizing t with
  | nil => rfl
  | cons u us ih => rw [List.foldl_cons, ih, retargeted, State.setSmoother_bypassPrev]

theorem bypassPrev_applied (s : State) : (applied s).bypassPrev = s.bypassPrev :=
  bypassPrev_foldl_retargeted _ _ _

/-- Settles O52: APPLY_PARAMS smoother by smoother, and the latch as APPLY_PARAMS and a possible RESET_STATE. -/
theorem latchSequence : Obligations.LatchSequence := by
  intro s
  refine ⟨applied s, resetState (applied s), congrArg Host.Outcome.next (valueOf_applyParams s), smoother_applied s,
    family_applied s, ?_, rfl, ?_⟩
  · rw [smoothersFrom_setFamily, smoothersFrom_applied]
  · rw [latched_eq, bypassPrev_applied, latchedBypass]
    by_cases hb : (s.holders.bypass != 0) = s.bypassPrev
    · rw [if_pos hb, if_neg (by simpa using hb)]
    · rw [if_neg hb, if_pos (by simpa using hb)]

/-! ## RESET_STATE (R143) -/

/-- Settles O53: the laws of RESET_STATE. -/
theorem resetSequence : Obligations.ResetSequence := fun s =>
  ⟨resetState s, rfl, neutral_resetState s, keptByReset_resetState s, resetState_frame s⟩

/-! ## SIZE (R144) -/

/-- SIZE changes the ramp length of a smoother only. -/
theorem smoother_sizeState (s : State) (v : SmootherId) :
    (valueOf (sizeState s)).smoother v =
      { s.smoother v with numSteps := ((valueOf (sizeState s)).smoother v).numSteps } := by
  rw [valueOf_sizeState]
  cases v with
  | mix u => cases u <;> rfl
  | _ => rfl

/-- SIZE changes the coefficients of a filter only. -/
theorem filter_sizeState (s : State) (f : FilterId) :
    (valueOf (sizeState s)).filter f = withCoefs (s.filter f) (coefsOf ((valueOf (sizeState s)).filter f)) := by
  rw [valueOf_sizeState]
  cases f <;> rfl

/-- SIZE leaves a filter that is not fixed (42_biquad.md R178). -/
theorem filter_sizeState_of_not_fixed (s : State) {f : FilterId} (h : f ∉ fixedFilters.map (·.1)) :
    (valueOf (sizeState s)).filter f = s.filter f := by
  have hcases : ∀ f : FilterId, f ∉ fixedFilters.map (·.1) →
      f ∈ [FilterId.shelfL, .shelfR, .velvetL, .velvetR, .snarlL, .snarlR] := by
    intro f
    cases f <;> decide
  have hleft : ∀ f ∈ [FilterId.shelfL, .shelfR, .velvetL, .velvetR, .snarlL, .snarlR],
      (valueOf (sizeState s)).filter f = s.filter f := by
    rw [valueOf_sizeState]
    simp only [List.forall_mem_cons]
    exact ⟨rfl, rfl, rfl, rfl, rfl, rfl, nofun⟩
  exact hleft f (hcases f h)

/-- SIZE changes the capacity of a memory only (43_delay_line.md R190). -/
theorem delay_sizeState (s : State) (d : DelayId) :
    (valueOf (sizeState s)).delay d = { s.delay d with cap := ((valueOf (sizeState s)).delay d).cap } := by
  rw [valueOf_sizeState]
  cases d <;> rfl

/-- What SIZE keeps of the audio state (R144). -/
theorem keptBySize_sizeState (s : State) : keptBySize s (valueOf (sizeState s)) := by
  refine ⟨smoother_sizeState s, filter_sizeState s, fun f hf => filter_sizeState_of_not_fixed s hf, delay_sizeState s, ?_⟩
  rw [valueOf_sizeState]
  exact ⟨rfl, rfl, rfl, rfl, rfl, rfl, rfl, rfl, rfl, rfl, rfl, rfl, rfl⟩

theorem sizeState_frame (s : State) : { valueOf (sizeState s) with pre := s.pre, units := s.units } = s := by
  rw [valueOf_sizeState]

/-- Settles O54: the laws of SIZE. -/
theorem sizeSequence : Obligations.SizeSequence := fun s =>
  ⟨valueOf (sizeState s), rfl, sized_sizeState s, keptBySize_sizeState s, sizeState_frame s⟩

end Sys2Proof.Proofs
end

section
/-! The sizes PREPARE computes (40_host_commands.md R144, 43_delay_line.md R190, R198): the product of a time and a derived
rate, rounded to binary32, still gives every memory its words and keeps every tap within its memory. -/

namespace Sys2Proof.Proofs

open Sys2Proof Sys2Proof.Machine Sys2Proof.Safety

/-! ## Rounding, from below -/

/-- A result not below a normal number is not rounded below it (R7). -/
theorem le_roundMag {num den : Nat} {c : F32} (hd : 0 < den) (hc : fExpo c ≠ 0) (hn : isNaN c = false)
    (h : fUnits c * den ≤ num) : magBits c ≤ roundMag num den := by
  obtain ⟨k, q, r, m, hnum, hr, hq, hk, hm, e⟩ := roundMag_parts num hd
  have hf := fFrac_lt c
  have hmag := magBits_eq c
  rw [isNaN_eq_false] at hn
  rw [fUnits_of_normal hc] at h
  obtain ⟨j, hj⟩ : ∃ j, fExpo c = j + 1 := ⟨fExpo c - 1, by omega⟩
  rw [hj] at h hmag
  rw [Nat.add_sub_cancel] at h
  have key : magBits c ≤ k * 2 ^ 23 + m := by
    have hlt : (2 ^ 23 + fFrac c) * 2 ^ j * den < (q + 1) * (den * 2 ^ k) := by
      have hsucc : (q + 1) * (den * 2 ^ k) = q * (den * 2 ^ k) + den * 2 ^ k := Nat.succ_mul _ _
      omega
    have hlt' : (2 ^ 23 + fFrac c) * 2 ^ j < (q + 1) * 2 ^ k :=
      Nat.lt_of_mul_lt_mul_right (a := den) (hlt.trans_eq (by ring))
    rcases lt_trichotomy k j with hkj | rfl | hkj
    · exfalso
      have h1 : (q + 1) * 2 ^ k ≤ 2 ^ 24 * 2 ^ k := Nat.mul_le_mul_right _ (by omega)
      have h2 : 2 ^ 23 * 2 ^ j ≤ (2 ^ 23 + fFrac c) * 2 ^ j := Nat.mul_le_mul_right _ (by omega)
      have h3 : 2 ^ (k + 1) ≤ 2 ^ j := Nat.pow_le_pow_right (by omega) hkj
      omega
    · have := Nat.lt_of_mul_lt_mul_right hlt'
      omega
    · have := hk (by omega)
      omega
  rw [e]
  split
  · omega
  · split <;> omega

/-- A product not below a normal number is not rounded below it. -/
theorem fLe_fMul {a b c : F32} (ha : nonneg a) (hb : nonneg b) (hfa : isFin a = true) (hfb : isFin b = true)
    (hc : fExpo c ≠ 0) (hn : nonneg c) (h : fUnits c * 2 ^ 149 ≤ fUnits a * fUnits b) : fLe c (fMul a b) = true := by
  have hd : 0 < 2 ^ 149 := by decide
  have hnan : isNaN c = false := (fLe_iff.mp hn).2.1
  rw [fMul_of_isFin hfa hfb]
  have hp : nonneg (fRound (fSign a != fSign b) (fUnits a * fUnits b) (2 ^ 149)) :=
    nonneg_fRound hd fun hs => Nat.mul_eq_zero.mpr (fUnits_mul_eq_zero ha hb hs)
  have hmag : magBits (fRound (fSign a != fSign b) (fUnits a * fUnits b) (2 ^ 149)) =
      roundMag (fUnits a * fUnits b) (2 ^ 149) :=
    (magBits_fPack _ ((roundMag_le_inf _ hd).trans_lt (by decide))).1
  rw [fLe_iff, fKey_of_nonneg hn, fKey_of_nonneg hp, hmag]
  exact ⟨hnan, (fLe_iff.mp hp).2.1, Int.ofNat_le.mpr (le_roundMag hd hc hnan h)⟩

/-! ## `floor_int` and `ceil_int` (00_scope.md R11) -/

theorem floorNat_of_nonneg {x : F32} (h : nonneg x) (hf : isFin x = true) : floorNat x = fUnits x / 2 ^ 149 :=
  if_pos (by simp [hf, fUnits_of_nonneg h])

theorem ceilNat_of_nonneg {x : F32} (h : nonneg x) (hf : isFin x = true) :
    ceilNat x = (fUnits x + (2 ^ 149 - 1)) / 2 ^ 149 :=
  if_pos (by simp [hf, fUnits_of_nonneg h])

theorem floorNat_le_ceilNat {x y : F32} (h : fLe x y = true) (hx : nonneg x) (hfy : isFin y = true) :
    floorNat x ≤ ceilNat y := by
  rw [floorNat_of_nonneg hx (isFin_of_fLe hx h hfy), ceilNat_of_nonneg (fLe_trans hx h) hfy]
  exact Nat.div_le_div_right ((fUnits_le_of_fLe hx h).trans (Nat.le_add_right _ _))

/-! ## A time at a rate -/

/-- The times of the delay memories and the taps lie between 0.008 and 0.5 seconds (10_state.md R38). -/
def timeOk (t : F32) : Prop := fLe k0_008 t = true ∧ fLe t k0_5 = true

theorem timeOk.nonneg {t : F32} (h : timeOk t) : nonneg t := fLe_trans (by decide) h.1

theorem timeOk.isFin {t : F32} (h : timeOk t) : isFin t = true := isFin_of_fLe h.nonneg h.2 (by decide)

theorem rateOk.isFin {sr : F32} (h : rateOk sr) : isFin sr = true := isFin_of_fLe h.nonneg h.2 (by decide)

/-- At any rate R32 allows a time is a finite number of at least 64 samples. -/
theorem samples_mem {t sr : F32} (ht : timeOk t) (hsr : rateOk sr) :
    fLe 0x42800000#32 (fMul t sr) = true ∧ upTo (fMul t sr) 0x47BB8000#32 := by
  have e1 : fUnits 0x42800000#32 * 2 ^ 149 ≤ fUnits k0_008 * fUnits Config.fsMin := by decide +kernel
  have e2 : fUnits k0_5 * fUnits Config.fsMax ≤ fUnits 0x47BB8000#32 * 2 ^ 149 := by decide +kernel
  have htlo := fUnits_le_of_fLe (by decide) ht.1
  have hthi := fUnits_le_of_fLe ht.nonneg ht.2
  have hslo := fUnits_le_of_fLe (by decide) hsr.1
  have hshi := fUnits_le_of_fLe hsr.nonneg hsr.2
  exact ⟨fLe_fMul ht.nonneg hsr.nonneg ht.isFin hsr.isFin (by decide) (by decide) (e1.trans (Nat.mul_le_mul htlo hslo)),
    fMul_upTo ht.nonneg hsr.nonneg ht.isFin hsr.isFin (by decide) (by decide) ((Nat.mul_le_mul hthi hshi).trans e2)⟩

/-- Half of a rate is a binary32 number. -/
theorem exists_half {sr : F32} (h : rateOk sr) :
    ∃ c, nonneg c ∧ fExpo c ≠ 0 ∧ fUnits c * 2 = fUnits sr := by
  obtain ⟨hmag, hsign⟩ := nonneg_iff.mp h.nonneg
  have hlo : magBits Config.fsMin ≤ magBits sr := by
    have hk := (fLe_iff.mp h.1).2.2
    rw [fKey_of_nonneg (by decide), fKey_of_nonneg h.nonneg] at hk
    exact Int.ofNat_le.mp hk
  have emin : magBits Config.fsMin = 0x45FA0000 := by decide
  have hs : fSign sr = false := by
    by_contra hne
    have := hsign (by simpa using hne)
    omega
  have hpos : sr.toNat = magBits sr := by
    rw [fSign_eq, decide_eq_false_iff_not] at hs
    unfold magBits
    omega
  have hc : (sr - 0x00800000#32).toNat = sr.toNat - 2 ^ 23 := by bv_omega
  have hmc : magBits (sr - 0x00800000#32) = magBits sr - 2 ^ 23 := by
    rw [magBits, hc]
    omega
  have hexpo : fExpo sr = fExpo (sr - 0x00800000#32) + 1 ∧ fExpo (sr - 0x00800000#32) ≠ 0 := by
    unfold fExpo
    rw [hc]
    omega
  have hfrac : fFrac (sr - 0x00800000#32) = fFrac sr := by
    unfold fFrac
    rw [hc]
    omega
  refine ⟨sr - 0x00800000#32, nonneg_iff.mpr ⟨by omega, fun hneg => ?_⟩, hexpo.2, ?_⟩
  · rw [fSign_eq, hc, decide_eq_true_iff] at hneg
    omega
  · obtain ⟨j, hj⟩ : ∃ j, fExpo (sr - 0x00800000#32) = j + 1 := ⟨_, (Nat.succ_pred_eq_of_ne_zero hexpo.2).symm⟩
    rw [fUnits_of_normal hexpo.2, fUnits_of_normal (by omega), hfrac, hexpo.1, hj, Nat.add_sub_cancel, Nat.add_sub_cancel]
    ring

/-- No time of at most half a second is rounded to more samples than half a second is. -/
theorem fLe_half_second {t sr : F32} (ht : timeOk t) (hsr : rateOk sr) : fLe (fMul t sr) (fMul k0_5 sr) = true := by
  obtain ⟨c, hc, hexpo, hhalf⟩ := exists_half hsr
  have e : fUnits k0_5 = 2 ^ 148 := by decide +kernel
  have hle := fUnits_le_of_fLe ht.nonneg ht.2
  rw [e] at hle
  have hup : upTo (fMul t sr) c := by
    refine fMul_upTo ht.nonneg hsr.nonneg ht.isFin hsr.isFin hexpo hc ((Nat.mul_le_mul_right _ hle).trans_eq ?_)
    rw [← hhalf]
    ring
  have hlow : fLe c (fMul k0_5 sr) = true := by
    refine fLe_fMul (by decide) hsr.nonneg (by decide) hsr.isFin hexpo hc (le_of_eq ?_)
    rw [e, ← hhalf]
    ring
  exact fLe_trans hup.2 hlow

/-! ## The memories and the taps (10_state.md R38, 43_delay_line.md R198) -/

theorem timeOk_maxDelay (d : DelayId) : timeOk (maxDelay d) := by
  unfold timeOk
  cases d <;> decide

/-- Each tap's time is that of the memory it reads, or the memory is Cascade's. -/
theorem taps_times (s : State) : ∀ x ∈ taps s, timeOk x.2.1 ∧ (x.2.1 = maxDelay x.2.2 ∨ x.2.2 = .cascade) := by
  simp only [taps, List.forall_mem_cons, timeOk]
  decide

theorem floorNat_samples {t sr : F32} (ht : timeOk t) (hsr : rateOk sr) : 64 ≤ floorNat (fMul t sr) := by
  obtain ⟨hlo, hhi⟩ := samples_mem ht hsr
  have e : fUnits 0x42800000#32 = 64 * 2 ^ 149 := by decide +kernel
  have hu := fUnits_le_of_fLe (by decide) hlo
  rw [floorNat_of_nonneg hhi.1 (hhi.isFin (by decide))]
  omega

/-- A tap is no longer than the memory it reads. -/
theorem tap_le_capacity {t sr : F32} {d : DelayId} (ht : timeOk t) (hd : t = maxDelay d ∨ d = .cascade)
    (hsr : rateOk sr) : floorNat (fMul t sr) ≤ ceilNat (fMul (maxDelay d) sr) := by
  have hfin := (samples_mem (timeOk_maxDelay d) hsr).2.isFin (by decide)
  have hx := (samples_mem ht hsr).2.1
  rcases hd with rfl | rfl
  · exact floorNat_le_ceilNat (fLe_iff.mpr ⟨(fLe_iff.mp hx).2.1, (fLe_iff.mp hx).2.1, le_rfl⟩) hx hfin
  · exact floorNat_le_ceilNat (fLe_half_second ht hsr) hx hfin

/-- What R144 computes at a rate R32 allows is safe to run with. -/
theorem sizes_safe {s : State} (hs : sized s) (hsr : rateOk s.sr) :
    (∀ d, 64 ≤ (s.delay d).cap) ∧ ∀ x ∈ taps s, 1 ≤ x.1 ∧ x.1 ≤ (s.delay x.2.2).cap := by
  obtain ⟨-, hcap, htap, -⟩ := hs
  refine ⟨fun d => ?_, fun x hx => ?_⟩
  · have hlo := floorNat_samples (timeOk_maxDelay d) hsr
    have hle := tap_le_capacity (timeOk_maxDelay d) (.inl rfl) hsr
    rw [hcap]
    omega
  · obtain ⟨ht, hd⟩ := taps_times s x hx
    have hlo := floorNat_samples ht hsr
    have hle := tap_le_capacity ht hd hsr
    rw [htap x hx, hcap]
    omega

/-- Settles O20: PREPARE sizes for a rate R32 allows. -/
theorem prepareSizesSafe : Obligations.PrepareSizesSafe := by
  intro s hg
  have hsr : ((prepare s).respond 0).sr = (prepare s).sr := State.respond_sr _ _
  have hpre : ((prepare s).respond 0).pre = (prepare s).pre := State.respond_pre _ _
  have hunits : ((prepare s).respond 0).units = (prepare s).units := State.respond_units _ _
  refine ⟨_, execPrepare_eq hg, sizes_safe (sized_of_eq hsr hpre hunits (sized_prepare s)) ?_⟩
  rw [hsr, sr_prepare]
  exact rateOk_effectiveRate _

end Sys2Proof.Proofs
end

section
/-! What stops an operation called by name is a word that does not exist, a word without a value, or a memory without a
size (logs 13, 17, 27). A unit that is ready meets none of them: its code completes, and so does PREAMP. -/

namespace Sys2Proof.Proofs

open Sys2Proof Sys2Proof.Machine Sys2Proof.Safety

/-! ## Computations that stop nothing -/

/-- The marks that stop an operation called by name. -/
def stopMarks (m : Marks) : Bool × Bool × Bool := (m.range, m.unsized, m.unwritten)

/-- A computation that sets no mark that stops an operation. -/
def Unstopped {α : Type} (c : Calc α) : Prop := ∀ m, stopMarks (c m).2 = stopMarks m

theorem Unstopped.pure {α : Type} (a : α) : Unstopped (pure a : Calc α) := fun _ => rfl

theorem Unstopped.bind {α β : Type} {c : Calc α} {f : α → Calc β} (hc : Unstopped c) (hf : ∀ a, Unstopped (f a)) :
    Unstopped (c >>= f) := fun m => (hf (c m).1 (c m).2).trans (hc m)

/-- A sequence whose second part stops nothing after the value of the first. -/
theorem Unstopped.bind_value {α β : Type} {c : Calc α} {f : α → Calc β} (hw : Writer c) (hc : Unstopped c)
    (hf : Unstopped (f (valueOf c))) : Unstopped (c >>= f) := fun m => by
  have h : (c >>= f) m = f (c m).1 (c m).2 := rfl
  rw [h, hw.value, hf, hc]

/-- An operation called by name completes if its computation stops nothing. -/
theorem finishOp_of_unstopped {c : Calc State} (h : Unstopped c) : finishOp c = .next (valueOf c) := by
  have hm : stopMarks (marksOf c) = (false, false, false) := h {}
  simp only [stopMarks, Prod.mk.injEq] at hm
  obtain ⟨hr, hu, hw⟩ := hm
  exact finishOp_of_marks hr hu hw

theorem unstopped_note (r : F32) : Unstopped (note r) := fun _ => rfl
theorem unstopped_cAdd (a b : F32) : Unstopped (cAdd a b) := unstopped_note _
theorem unstopped_cSub (a b : F32) : Unstopped (cSub a b) := unstopped_note _
theorem unstopped_cMul (a b : F32) : Unstopped (cMul a b) := unstopped_note _
theorem unstopped_cDiv (a b : F32) : Unstopped (cDiv a b) := unstopped_note _
theorem unstopped_cSqrt (a : F32) : Unstopped (cSqrt a) := unstopped_note _

/-- A memory with a size may be used. -/
theorem unstopped_needSize {cap : Nat} (h : cap ≠ 0) : Unstopped (needSize cap) := fun m => by
  simp [needSize, stopMarks, h]

/-- A frame that exists and holds a value may be read. -/
theorem unstopped_bufRead {b : SampleBuffer} {ch : Channel} {i : Nat} (hi : i < Config.maxblkMax)
    (h : b.get? ch i ≠ none) : Unstopped (bufRead b ch i) := fun m => by
  obtain ⟨w, hw⟩ := Option.ne_none_iff_exists'.mp h
  simp [bufRead, Nat.not_le.mpr hi, hw, stopMarks]

/-! ## Smoothers, filters, delay lines -/

theorem unstopped_next (v : Smoother) : Unstopped v.next := by
  unfold Smoother.next
  repeat' first
    | with_reducible first | exact Unstopped.pure _ | exact unstopped_cAdd _ _ | refine Unstopped.bind ?_ fun _ => ?_
    | dsimp only
    | split

theorem unstopped_bqProcess (f : Biquad) (x : F32) : Unstopped (f.process x) := by
  unfold Biquad.process
  repeat' with_reducible first
    | exact Unstopped.pure _ | exact unstopped_cAdd _ _ | exact unstopped_cSub _ _ | exact unstopped_cMul _ _
    | refine Unstopped.bind ?_ fun _ => ?_

theorem unstopped_angle (fc sr : F32) : Unstopped (angle fc sr) := by
  unfold angle
  repeat' with_reducible first
    | exact Unstopped.pure _ | exact unstopped_cMul _ _ | exact unstopped_cDiv _ _
    | refine Unstopped.bind ?_ fun _ => ?_

theorem unstopped_rawLp (cs sn q : F32) : Unstopped (rawLp cs sn q) := by
  unfold rawLp
  repeat' with_reducible first
    | exact Unstopped.pure _ | exact unstopped_cAdd _ _ | exact unstopped_cSub _ _ | exact unstopped_cMul _ _
    | exact unstopped_cDiv _ _ | refine Unstopped.bind ?_ fun _ => ?_

theorem unstopped_rawHp (cs sn q : F32) : Unstopped (rawHp cs sn q) := by
  unfold rawHp
  repeat' with_reducible first
    | exact Unstopped.pure _ | exact unstopped_cAdd _ _ | exact unstopped_cSub _ _ | exact unstopped_cMul _ _
    | exact unstopped_cDiv _ _ | refine Unstopped.bind ?_ fun _ => ?_

theorem unstopped_rawBp (cs sn q : F32) : Unstopped (rawBp cs sn q) := by
  unfold rawBp
  repeat' with_reducible first
    | exact Unstopped.pure _ | exact unstopped_cAdd _ _ | exact unstopped_cSub _ _ | exact unstopped_cMul _ _
    | exact unstopped_cDiv _ _ | refine Unstopped.bind ?_ fun _ => ?_

theorem unstopped_rawLs (cs sn q g : F32) : Unstopped (rawLs cs sn q g) := by
  unfold rawLs
  repeat' with_reducible first
    | exact Unstopped.pure _ | exact unstopped_cAdd _ _ | exact unstopped_cSub _ _ | exact unstopped_cMul _ _
    | exact unstopped_cDiv _ _ | exact unstopped_cSqrt _ | refine Unstopped.bind ?_ fun _ => ?_

theorem unstopped_normalise (f : Biquad) (r : RawCoefs) : Unstopped (f.normalise r) := by
  unfold Biquad.normalise
  repeat' with_reducible first
    | exact Unstopped.pure _ | exact unstopped_cDiv _ _ | refine Unstopped.bind ?_ fun _ => ?_

theorem unstopped_setc (f : Biquad) (k : FilterKind) (fc q sr g : F32) : Unstopped (f.setc k fc q sr g) := by
  unfold Biquad.setc
  repeat' first
    | with_reducible first
        | exact Unstopped.pure _ | exact unstopped_angle _ _ | exact unstopped_note _ | exact unstopped_rawLp _ _ _
        | exact unstopped_rawHp _ _ _ | exact unstopped_rawBp _ _ _ | exact unstopped_rawLs _ _ _ _
        | exact unstopped_normalise _ _ | refine Unstopped.bind ?_ fun _ => ?_
    | dsimp only
    | split

theorem unstopped_readPos (d : DelayLine) (t : F32) : Unstopped (d.readPos t) := by
  unfold DelayLine.readPos
  repeat' first
    | with_reducible first
        | exact Unstopped.pure _ | exact unstopped_cSub _ _ | exact unstopped_cAdd _ _
        | refine Unstopped.bind ?_ fun _ => ?_
    | dsimp only
    | split

theorem unstopped_readF (d : DelayLine) (ch : Channel) (t : F32) : Unstopped (d.readF ch t) := by
  unfold DelayLine.readF
  repeat' with_reducible first
    | exact Unstopped.pure _ | exact unstopped_readPos _ _ | exact unstopped_cSub _ _ | exact unstopped_cAdd _ _
    | exact unstopped_cMul _ _ | refine Unstopped.bind ?_ fun _ => ?_

section
variable {d : DelayLine} (h : d.cap ≠ 0)
include h

theorem unstopped_cReadI (lag : Nat) : Unstopped (cReadI d lag) := .bind (unstopped_needSize h) fun _ => .pure _

theorem unstopped_cReadF (ch : Channel) (t : F32) : Unstopped (cReadF d ch t) :=
  .bind (unstopped_needSize h) fun _ => unstopped_readF d ch t

theorem unstopped_cPush (vL vR : F32) : Unstopped (cPush d vL vR) := .bind (unstopped_needSize h) fun _ => .pure _

end

/-! ## Primitives -/

theorem unstopped_xfmrSat (x : F32) : Unstopped (xfmrSat x) := by
  unfold xfmrSat
  dsimp only
  repeat' first
    | with_reducible first
        | exact Unstopped.pure _ | exact unstopped_cAdd _ _ | exact unstopped_cSub _ _ | exact unstopped_cMul _ _
        | refine Unstopped.bind ?_ fun _ => ?_
    | dsimp only
    | split

theorem unstopped_softclip (x : F32) : Unstopped (softclip x) := by
  unfold softclip
  repeat' first
    | with_reducible first
        | exact Unstopped.pure _ | exact unstopped_cMul _ _ | exact unstopped_note _
        | refine Unstopped.bind ?_ fun _ => ?_
    | dsimp only
    | split

theorem unstopped_emberShape (x : F32) : Unstopped (emberShape x) := by
  unfold emberShape
  repeat' first
    | with_reducible first
        | exact Unstopped.pure _ | exact unstopped_cMul _ _ | exact unstopped_note _
        | refine Unstopped.bind ?_ fun _ => ?_
    | dsimp only
    | split

theorem unstopped_quant (x nb : F32) : Unstopped (quant x nb) := by
  unfold quant
  repeat' with_reducible first
    | exact Unstopped.pure _ | exact unstopped_cMul _ _ | exact unstopped_note _ | exact unstopped_cSub _ _
    | exact unstopped_cDiv _ _ | refine Unstopped.bind ?_ fun _ => ?_

theorem unstopped_lfoAdvance (p r sr : F32) : Unstopped (lfoAdvance p r sr) := by
  unfold lfoAdvance
  repeat' first
    | with_reducible first
        | exact Unstopped.pure _ | exact unstopped_cAdd _ _ | exact unstopped_cDiv _ _ | exact unstopped_cSub _ _
        | refine Unstopped.bind ?_ fun _ => ?_
    | dsimp only
    | split

theorem unstopped_lfoSine (p : F32) : Unstopped (lfoSine p) := by
  unfold lfoSine
  repeat' with_reducible first
    | exact Unstopped.pure _ | exact unstopped_cMul _ _ | exact unstopped_note _
    | refine Unstopped.bind ?_ fun _ => ?_

theorem unstopped_lfoTri (p : F32) : Unstopped (lfoTri p) := by
  unfold lfoTri
  repeat' first
    | with_reducible first
        | exact Unstopped.pure _ | exact unstopped_cMul _ _ | exact unstopped_cSub _ _
        | refine Unstopped.bind ?_ fun _ => ?_
    | dsimp only
    | split

theorem unstopped_envStep (e l a r : F32) : Unstopped (envStep e l a r) := by
  unfold envStep
  dsimp only
  repeat' with_reducible first
    | exact Unstopped.pure _ | exact unstopped_cMul _ _ | exact unstopped_cAdd _ _ | exact unstopped_cSub _ _
    | refine Unstopped.bind ?_ fun _ => ?_

theorem unstopped_gate (e : F32) : Unstopped (gate e) := by
  unfold gate
  repeat' first
    | with_reducible first | exact Unstopped.pure _ | exact unstopped_cDiv _ _ | refine Unstopped.bind ?_ fun _ => ?_
    | dsimp only
    | split

theorem unstopped_xfade (d w m : F32) : Unstopped (xfade d w m) := by
  unfold xfade
  repeat' with_reducible first
    | exact Unstopped.pure _ | exact unstopped_cAdd _ _ | exact unstopped_cMul _ _ | exact unstopped_cSub _ _
    | refine Unstopped.bind ?_ fun _ => ?_

theorem unstopped_xfade2 (l r wL wR m : F32) : Unstopped (xfade2 l r wL wR m) := by
  unfold xfade2
  repeat' with_reducible first
    | exact Unstopped.pure _ | exact unstopped_xfade _ _ _ | refine Unstopped.bind ?_ fun _ => ?_

/-! ## One SAMPLE of a unit whose memories have a size -/

theorem unstopped_emberChannel (x p : F32) : Unstopped (emberChannel x p) := by
  unfold emberChannel
  repeat' with_reducible first
    | exact Unstopped.pure _ | exact unstopped_cAdd _ _ | exact unstopped_cMul _ _ | exact unstopped_emberShape _
    | refine Unstopped.bind ?_ fun _ => ?_

theorem unstopped_driftLag (p sr : F32) : Unstopped (driftLag p sr) := by
  unfold driftLag
  repeat' with_reducible first
    | exact Unstopped.pure _ | exact unstopped_cAdd _ _ | exact unstopped_cMul _ _ | exact unstopped_lfoSine _
    | refine Unstopped.bind ?_ fun _ => ?_

theorem unstopped_driftRight (p : F32) : Unstopped (driftRight p) := by
  unfold driftRight
  repeat' first
    | with_reducible first
        | exact Unstopped.pure _ | exact unstopped_cAdd _ _ | exact unstopped_cSub _ _
        | refine Unstopped.bind ?_ fun _ => ?_
    | dsimp only
    | split

theorem unstopped_fractureChannel (x g nb : F32) : Unstopped (fractureChannel x g nb) := by
  unfold fractureChannel
  repeat' with_reducible first
    | exact Unstopped.pure _ | exact unstopped_cMul _ _ | exact unstopped_quant _ _
    | refine Unstopped.bind ?_ fun _ => ?_

theorem unstopped_cascadeSum (a b c d : F32) : Unstopped (cascadeSum a b c d) := by
  unfold cascadeSum
  repeat' with_reducible first
    | exact Unstopped.pure _ | exact unstopped_cMul _ _ | exact unstopped_cAdd _ _
    | refine Unstopped.bind ?_ fun _ => ?_

theorem unstopped_scorchChannel (x g : F32) : Unstopped (scorchChannel x g) := by
  unfold scorchChannel
  repeat' with_reducible first
    | exact Unstopped.pure _ | exact unstopped_cMul _ _ | exact unstopped_cAdd _ _
    | refine Unstopped.bind ?_ fun _ => ?_

theorem unstopped_emberSample (u : Ember) (l r m : F32) : Unstopped (u.sample l r m) := by
  unfold Ember.sample
  repeat' with_reducible first
    | exact Unstopped.pure _ | exact unstopped_emberChannel _ _ | exact unstopped_xfade2 _ _ _ _ _
    | refine Unstopped.bind ?_ fun _ => ?_

theorem unstopped_velvetSample (u : Velvet) (l r m : F32) : Unstopped (u.sample l r m) := by
  unfold Velvet.sample
  repeat' with_reducible first
    | exact Unstopped.pure _ | exact unstopped_bqProcess _ _ | exact unstopped_xfade2 _ _ _ _ _
    | refine Unstopped.bind ?_ fun _ => ?_

theorem unstopped_driftSample (sr : F32) {u : Drift} (h : u.d.cap ≠ 0) (l r m : F32) :
    Unstopped (Drift.sample sr u l r m) := by
  unfold Drift.sample
  repeat' with_reducible first
    | exact Unstopped.pure _ | exact unstopped_driftRight _ | exact unstopped_driftLag _ _
    | exact unstopped_cReadF h _ _ | exact unstopped_cPush h _ _ | exact unstopped_lfoAdvance _ _ _
    | exact unstopped_cMul _ _ | exact unstopped_xfade2 _ _ _ _ _ | refine Unstopped.bind ?_ fun _ => ?_

theorem unstopped_echoSample (sr : F32) {u : Echo} (h : u.d.cap ≠ 0) (l r m : F32) :
    Unstopped (Echo.sample sr u l r m) := by
  unfold Echo.sample
  repeat' with_reducible first
    | exact Unstopped.pure _ | exact unstopped_lfoSine _ | exact unstopped_cAdd _ _ | exact unstopped_cMul _ _
    | exact unstopped_cReadF h _ _ | exact unstopped_bqProcess _ _ | exact unstopped_cPush h _ _
    | exact unstopped_lfoAdvance _ _ _ | exact unstopped_xfade2 _ _ _ _ _ | refine Unstopped.bind ?_ fun _ => ?_

theorem unstopped_hazeSample {u : Haze} (hA : u.combA.cap ≠ 0) (hB : u.combB.cap ≠ 0) (l r m : F32) :
    Unstopped (u.sample l r m) := by
  unfold Haze.sample
  repeat' with_reducible first
    | exact Unstopped.pure _ | exact unstopped_cReadI hA _ | exact unstopped_cReadI hB _ | exact unstopped_cAdd _ _
    | exact unstopped_cMul _ _ | exact unstopped_bqProcess _ _ | exact unstopped_cPush hA _ _
    | exact unstopped_cPush hB _ _ | exact unstopped_xfade2 _ _ _ _ _ | refine Unstopped.bind ?_ fun _ => ?_

theorem unstopped_fractureSample (u : Fracture) (l r m : F32) : Unstopped (u.sample l r m) := by
  unfold Fracture.sample
  repeat' with_reducible first
    | exact Unstopped.pure _ | exact unstopped_cAdd _ _ | exact unstopped_cSub _ _ | exact unstopped_cMul _ _
    | exact unstopped_fractureChannel _ _ _ | exact unstopped_xfade2 _ _ _ _ _ | refine Unstopped.bind ?_ fun _ => ?_

theorem unstopped_prismSample (u : Prism) (l r m : F32) : Unstopped (u.sample l r m) := by
  unfold Prism.sample
  repeat' with_reducible first
    | exact Unstopped.pure _ | exact unstopped_cAdd _ _ | exact unstopped_cMul _ _ | exact unstopped_xfade2 _ _ _ _ _
    | refine Unstopped.bind ?_ fun _ => ?_

theorem unstopped_phaseSample (sr : F32) {u : Phase} (h : u.d.cap ≠ 0) (l r m : F32) :
    Unstopped (Phase.sample sr u l r m) := by
  unfold Phase.sample
  repeat' with_reducible first
    | exact Unstopped.pure _ | exact unstopped_lfoTri _ | exact unstopped_cAdd _ _ | exact unstopped_cSub _ _
    | exact unstopped_cMul _ _ | exact unstopped_cReadF h _ _ | exact unstopped_cPush h _ _
    | exact unstopped_lfoAdvance _ _ _ | exact unstopped_xfade2 _ _ _ _ _ | refine Unstopped.bind ?_ fun _ => ?_

theorem unstopped_cascadeSample {u : Cascade} (h : u.d.cap ≠ 0) (l r m : F32) : Unstopped (u.sample l r m) := by
  unfold Cascade.sample
  repeat' with_reducible first
    | exact Unstopped.pure _ | exact unstopped_cReadI h _ | exact unstopped_cascadeSum _ _ _ _
    | exact unstopped_cAdd _ _ | exact unstopped_cMul _ _ | exact unstopped_cPush h _ _
    | exact unstopped_xfade2 _ _ _ _ _ | refine Unstopped.bind ?_ fun _ => ?_

theorem unstopped_glistenSample {u : Glisten} (hM : u.main.cap ≠ 0) (hS : u.shim.cap ≠ 0) (l r m : F32) :
    Unstopped (u.sample l r m) := by
  unfold Glisten.sample
  repeat' with_reducible first
    | exact Unstopped.pure _ | exact unstopped_cReadI hM _ | exact unstopped_needSize hS
    | exact unstopped_bqProcess _ _ | exact unstopped_cAdd _ _ | exact unstopped_cMul _ _
    | exact unstopped_cPush hM _ _ | exact unstopped_cPush hS _ _ | exact unstopped_xfade2 _ _ _ _ _
    | refine Unstopped.bind ?_ fun _ => ?_

theorem unstopped_scorchSample (u : Scorch) (l r m : F32) : Unstopped (u.sample l r m) := by
  unfold Scorch.sample
  repeat' with_reducible first
    | exact Unstopped.pure _ | exact unstopped_cAdd _ _ | exact unstopped_cMul _ _ | exact unstopped_scorchChannel _ _
    | exact unstopped_xfade2 _ _ _ _ _ | refine Unstopped.bind ?_ fun _ => ?_

theorem unstopped_snarlSample (u : Snarl) (l r m : F32) : Unstopped (u.sample l r m) := by
  unfold Snarl.sample
  repeat' with_reducible first
    | exact Unstopped.pure _ | exact unstopped_cAdd _ _ | exact unstopped_cMul _ _ | exact unstopped_bqProcess _ _
    | exact unstopped_note _ | exact unstopped_xfade2 _ _ _ _ _ | refine Unstopped.bind ?_ fun _ => ?_

theorem unstopped_shredSample (sr : F32) (u : Shred) (l r m : F32) : Unstopped (Shred.sample sr u l r m) := by
  unfold Shred.sample
  repeat' with_reducible first
    | exact Unstopped.pure _ | exact unstopped_lfoSine _ | exact unstopped_lfoAdvance _ _ _ | exact unstopped_cAdd _ _
    | exact unstopped_cMul _ _ | exact unstopped_xfade2 _ _ _ _ _ | refine Unstopped.bind ?_ fun _ => ?_

theorem unstopped_grindSample {u : Grind} (h : u.d.cap ≠ 0) (l r m : F32) : Unstopped (u.sample l r m) := by
  unfold Grind.sample
  dsimp only
  repeat' first
    | with_reducible first
        | exact Unstopped.pure _ | exact unstopped_cReadI h _ | exact unstopped_cMul _ _ | exact unstopped_cSub _ _
        | exact unstopped_cAdd _ _ | exact unstopped_quant _ _ | exact unstopped_cPush h _ _
        | exact unstopped_xfade2 _ _ _ _ _ | refine Unstopped.bind ?_ fun _ => ?_
    | dsimp only
    | split

theorem unstopped_rustSample {u : Rust} (hA : u.combA.cap ≠ 0) (hB : u.combB.cap ≠ 0) (l r m : F32) :
    Unstopped (u.sample l r m) := by
  unfold Rust.sample
  repeat' with_reducible first
    | exact Unstopped.pure _ | exact unstopped_envStep _ _ _ _ | exact unstopped_gate _ | exact unstopped_cReadI hA _
    | exact unstopped_cReadI hB _ | exact unstopped_cAdd _ _ | exact unstopped_cMul _ _ | exact unstopped_cPush hA _ _
    | exact unstopped_cPush hB _ _ | exact unstopped_xfade2 _ _ _ _ _ | refine Unstopped.bind ?_ fun _ => ?_

/-! ## The loop over the frames of a block -/

theorem framesHeld_writeFrame {b : SampleBuffer} {n : Nat} (i : Nat) (l r : F32) (h : framesHeld b n) :
    framesHeld (writeFrame b i l r) n := fun ch j hj =>
  SampleBuffer.held_set _ _ _ _ _ _ (SampleBuffer.held_set _ _ _ _ _ _ (h ch j hj))

/-- The loop of a unit over frames that exist and hold values stops nothing, if its two parts stop nothing on registers
with a property that they keep. -/
theorem unstopped_unitFrames {U : Type} {mixNext : U → Calc (F32 × U)}
    {sample : U → F32 → F32 → F32 → Calc ((F32 × F32) × U)} (hm : ∀ u, Writer (mixNext u))
    (hs : ∀ u l r m, Writer (sample u l r m)) {P : U → Prop} (hum : ∀ u, Unstopped (mixNext u))
    (hus : ∀ u l r m, P u → Unstopped (sample u l r m)) (hpm : ∀ u, P u → P (valueOf (mixNext u)).2)
    (hps : ∀ u l r m, P u → P (valueOf (sample u l r m)).2) {k i : Nat} {u : U} {b : SampleBuffer}
    (hi : i + k ≤ Config.maxblkMax) (hb : framesHeld b (i + k)) (h : P u) :
    Unstopped (unitFrames mixNext sample k i u b) := by
  induction k generalizing i u b with
  | zero => exact Unstopped.pure _
  | succ k ih =>
    have hik : i + (k + 1) = i + 1 + k := by omega
    rw [hik] at hi hb
    have hp := hpm u h
    rw [unitFrames]
    refine Unstopped.bind_value (hm u) (hum u) ?_
    generalize valueOf (mixNext u) = x at hp ⊢
    obtain ⟨m, u1⟩ := x
    dsimp only at hp ⊢
    by_cases hsil : dLt m mixSilence = true
    · rw [if_pos hsil]
      exact ih hi hb hp
    · rw [if_neg hsil]
      refine Unstopped.bind (unstopped_bufRead (by omega) (hb _ _ (by omega))) fun l => ?_
      refine Unstopped.bind (unstopped_bufRead (by omega) (hb _ _ (by omega))) fun r => ?_
      exact Unstopped.bind_value (hs _ _ _ _) (hus _ _ _ _ hp) (ih hi (framesHeld_writeFrame _ _ _ hb) (hps _ _ _ _ hp))

/-- The loop of a unit without a delay memory. -/
theorem unstopped_unitFrames_of_all {U : Type} {mixNext : U → Calc (F32 × U)}
    {sample : U → F32 → F32 → F32 → Calc ((F32 × F32) × U)} (hm : ∀ u, Writer (mixNext u))
    (hs : ∀ u l r m, Writer (sample u l r m)) (hum : ∀ u, Unstopped (mixNext u))
    (hus : ∀ u l r m, Unstopped (sample u l r m)) {n : Nat} (u : U) {b : SampleBuffer} (hn : n ≤ Config.maxblkMax)
    (hb : framesHeld b n) : Unstopped (unitFrames mixNext sample n 0 u b) :=
  unstopped_unitFrames hm hs (P := fun _ => True) hum (fun u l r m _ => hus u l r m) (fun _ _ => trivial)
    (fun _ _ _ _ _ => trivial) (by omega) (by rwa [Nat.zero_add]) trivial

theorem unstopped_velvetStart (u : Velvet) (sr : F32) : Unstopped (u.blockStart sr) := by
  unfold Velvet.blockStart
  dsimp only
  repeat' with_reducible first
    | exact Unstopped.pure _ | exact unstopped_cAdd _ _ | exact unstopped_cSub _ _ | exact unstopped_cMul _ _
    | exact unstopped_setc _ _ _ _ _ _ | refine Unstopped.bind ?_ fun _ => ?_

theorem unstopped_snarlStart (u : Snarl) (sr : F32) : Unstopped (u.blockStart sr) := by
  unfold Snarl.blockStart
  dsimp only
  repeat' with_reducible first
    | exact Unstopped.pure _ | exact unstopped_cAdd _ _ | exact unstopped_cMul _ _
    | exact unstopped_setc _ _ _ _ _ _ | refine Unstopped.bind ?_ fun _ => ?_

/-! Each unit's mix advances as a smoother. -/

theorem unstopped_emberMix (u : Ember) : Unstopped u.mixNext := .bind (unstopped_next _) fun _ => .pure _
theorem unstopped_velvetMix (u : Velvet) : Unstopped u.mixNext := .bind (unstopped_next _) fun _ => .pure _
theorem unstopped_driftMix (u : Drift) : Unstopped u.mixNext := .bind (unstopped_next _) fun _ => .pure _
theorem unstopped_echoMix (u : Echo) : Unstopped u.mixNext := .bind (unstopped_next _) fun _ => .pure _
theorem unstopped_hazeMix (u : Haze) : Unstopped u.mixNext := .bind (unstopped_next _) fun _ => .pure _
theorem unstopped_fractureMix (u : Fracture) : Unstopped u.mixNext := .bind (unstopped_next _) fun _ => .pure _
theorem unstopped_prismMix (u : Prism) : Unstopped u.mixNext := .bind (unstopped_next _) fun _ => .pure _
theorem unstopped_phaseMix (u : Phase) : Unstopped u.mixNext := .bind (unstopped_next _) fun _ => .pure _
theorem unstopped_cascadeMix (u : Cascade) : Unstopped u.mixNext := .bind (unstopped_next _) fun _ => .pure _
theorem unstopped_glistenMix (u : Glisten) : Unstopped u.mixNext := .bind (unstopped_next _) fun _ => .pure _
theorem unstopped_scorchMix (u : Scorch) : Unstopped u.mixNext := .bind (unstopped_next _) fun _ => .pure _
theorem unstopped_snarlMix (u : Snarl) : Unstopped u.mixNext := .bind (unstopped_next _) fun _ => .pure _
theorem unstopped_shredMix (u : Shred) : Unstopped u.mixNext := .bind (unstopped_next _) fun _ => .pure _
theorem unstopped_grindMix (u : Grind) : Unstopped u.mixNext := .bind (unstopped_next _) fun _ => .pure _
theorem unstopped_rustMix (u : Rust) : Unstopped u.mixNext := .bind (unstopped_next _) fun _ => .pure _

/-- A unit that is ready for a block stops nothing over it (45_units_cathode.md R230). -/
theorem unstopped_unitProcess {u : UnitId} {n : Nat} {s : State} (h : unitReady u n s) :
    Unstopped (unitProcess u n s) := by
  obtain ⟨hn, hb, hcap⟩ := h
  have hb0 : framesHeld s.buf (0 + n) := by rwa [Nat.zero_add]
  have hn0 : 0 + n ≤ Config.maxblkMax := by rwa [Nat.zero_add]
  cases u
  all_goals refine Unstopped.bind ?_ fun _ => Unstopped.pure _
  case ember =>
    exact unstopped_unitFrames_of_all writer_emberMix writer_emberSample unstopped_emberMix
      unstopped_emberSample _ hn hb
  case velvet =>
    exact Unstopped.bind (unstopped_velvetStart _ _) fun _ => unstopped_unitFrames_of_all writer_velvetMix
      writer_velvetSample unstopped_velvetMix unstopped_velvetSample _ hn hb
  case drift =>
    refine unstopped_unitFrames writer_driftMix (writer_driftSample s.sr) (P := fun u => u.d.cap ≠ 0)
      unstopped_driftMix (fun u l r m h => unstopped_driftSample s.sr h l r m) (fun u h => ?_)
      (fun u l r m h => ?_) hn0 hb0 (hcap .drift (by decide))
    · rw [valueOf_driftMix]; exact h
    · rw [valueOf_driftSample]; exact h
  case echo =>
    refine unstopped_unitFrames writer_echoMix (writer_echoSample s.sr) (P := fun u => u.d.cap ≠ 0)
      unstopped_echoMix (fun u l r m h => unstopped_echoSample s.sr h l r m) (fun u h => ?_)
      (fun u l r m h => ?_) hn0 hb0 (hcap .echo (by decide))
    · rw [valueOf_echoMix]; exact h
    · rw [valueOf_echoSample]; exact h
  case haze =>
    refine unstopped_unitFrames writer_hazeMix writer_hazeSample (P := fun u => u.combA.cap ≠ 0 ∧ u.combB.cap ≠ 0)
      unstopped_hazeMix (fun u l r m h => unstopped_hazeSample h.1 h.2 l r m) (fun u h => ?_)
      (fun u l r m h => ?_) hn0 hb0 ⟨hcap .hazeA (by decide), hcap .hazeB (by decide)⟩
    · rw [valueOf_hazeMix]; exact h
    · rw [valueOf_hazeSample]; exact h
  case fracture =>
    exact unstopped_unitFrames_of_all writer_fractureMix writer_fractureSample unstopped_fractureMix
      unstopped_fractureSample _ hn hb
  case prism =>
    exact unstopped_unitFrames_of_all writer_prismMix writer_prismSample unstopped_prismMix
      unstopped_prismSample _ hn hb
  case phase =>
    refine unstopped_unitFrames writer_phaseMix (writer_phaseSample s.sr) (P := fun u => u.d.cap ≠ 0)
      unstopped_phaseMix (fun u l r m h => unstopped_phaseSample s.sr h l r m) (fun u h => ?_)
      (fun u l r m h => ?_) hn0 hb0 (hcap .phase (by decide))
    · rw [valueOf_phaseMix]; exact h
    · rw [valueOf_phaseSample]; exact h
  case cascade =>
    refine unstopped_unitFrames writer_cascadeMix writer_cascadeSample (P := fun u => u.d.cap ≠ 0)
      unstopped_cascadeMix (fun u l r m h => unstopped_cascadeSample h l r m) (fun u h => ?_)
      (fun u l r m h => ?_) hn0 hb0 (hcap .cascade (by decide))
    · rw [valueOf_cascadeMix]; exact h
    · rw [valueOf_cascadeSample]; exact h
  case glisten =>
    refine unstopped_unitFrames writer_glistenMix writer_glistenSample (P := fun u => u.main.cap ≠ 0 ∧ u.shim.cap ≠ 0)
      unstopped_glistenMix (fun u l r m h => unstopped_glistenSample h.1 h.2 l r m) (fun u h => ?_)
      (fun u l r m h => ?_) hn0 hb0 ⟨hcap .glistenM (by decide), hcap .glistenS (by decide)⟩
    · rw [valueOf_glistenMix]; exact h
    · rw [valueOf_glistenSample]; exact h
  case scorch =>
    exact unstopped_unitFrames_of_all writer_scorchMix writer_scorchSample unstopped_scorchMix
      unstopped_scorchSample _ hn hb
  case snarl =>
    exact Unstopped.bind (unstopped_snarlStart _ _) fun _ => unstopped_unitFrames_of_all writer_snarlMix
      writer_snarlSample unstopped_snarlMix unstopped_snarlSample _ hn hb
  case shred =>
    exact unstopped_unitFrames_of_all writer_shredMix (writer_shredSample s.sr) unstopped_shredMix
      (unstopped_shredSample s.sr) _ hn hb
  case grind =>
    refine unstopped_unitFrames writer_grindMix writer_grindSample (P := fun u => u.d.cap ≠ 0)
      unstopped_grindMix (fun u l r m h => unstopped_grindSample h l r m) (fun u h => ?_)
      (fun u l r m h => ?_) hn0 hb0 (hcap .grind (by decide))
    · rw [valueOf_grindMix]; exact h
    · rw [valueOf_grindSample]; exact h
  case rust =>
    refine unstopped_unitFrames writer_rustMix writer_rustSample (P := fun u => u.combA.cap ≠ 0 ∧ u.combB.cap ≠ 0)
      unstopped_rustMix (fun u l r m h => unstopped_rustSample h.1 h.2 l r m) (fun u h => ?_)
      (fun u l r m h => ?_) hn0 hb0 ⟨hcap .rustA (by decide), hcap .rustB (by decide)⟩
    · rw [valueOf_rustMix]; exact h
    · rw [valueOf_rustSample]; exact h

/-! ## The preamp (48_preamp.md R280) -/

theorem unstopped_setShelf (p : Preamp) (sr tn : F32) : Unstopped (p.setShelf sr tn) := by
  unfold Preamp.setShelf
  repeat' with_reducible first
    | exact Unstopped.pure _ | exact unstopped_cAdd _ _ | exact unstopped_cMul _ _
    | exact unstopped_setc _ _ _ _ _ _ | refine Unstopped.bind ?_ fun _ => ?_

theorem unstopped_preampShape (x g : F32) : Unstopped (preampShape x g) :=
  Unstopped.bind (unstopped_cMul _ _) fun _ => Unstopped.bind (unstopped_xfmrSat _) fun _ => unstopped_softclip _

theorem unstopped_preampAdvance (p : Preamp) : Unstopped p.advance :=
  Unstopped.bind (unstopped_next _) fun _ => Unstopped.bind (unstopped_next _) fun _ =>
    Unstopped.bind (unstopped_next _) fun _ => Unstopped.pure _

theorem unstopped_preampFrame (sr : F32) (p : Preamp) (l r : F32) : Unstopped (p.frame sr l r) := by
  unfold Preamp.frame
  repeat' with_reducible first
    | exact Unstopped.pure _ | exact unstopped_preampAdvance _ | exact unstopped_setShelf _ _ _
    | exact unstopped_cAdd _ _ | exact unstopped_cMul _ _ | exact unstopped_preampShape _ _
    | exact unstopped_bqProcess _ _ | refine Unstopped.bind ?_ fun _ => ?_

theorem unstopped_preampFrames (sr : F32) {k i : Nat} {p : Preamp} {b : SampleBuffer}
    (hi : i + k ≤ Config.maxblkMax) (hb : framesHeld b (i + k)) : Unstopped (preampFrames sr k i p b) := by
  induction k generalizing i p b with
  | zero => exact Unstopped.pure _
  | succ k ih =>
    have hik : i + (k + 1) = i + 1 + k := by omega
    rw [hik] at hi hb
    rw [preampFrames]
    refine Unstopped.bind (unstopped_bufRead (by omega) (hb _ _ (by omega))) fun l => ?_
    refine Unstopped.bind (unstopped_bufRead (by omega) (hb _ _ (by omega))) fun r => ?_
    exact Unstopped.bind (unstopped_preampFrame _ _ _ _) fun _ => ih hi (framesHeld_writeFrame _ _ _ hb)

theorem unstopped_preamp {n : Nat} {s : State} (hn : n ≤ Config.maxblkMax) (hb : framesHeld s.buf n) :
    Unstopped (preamp n s) :=
  Unstopped.bind (unstopped_preampFrames s.sr (by omega) (by rwa [Nat.zero_add])) fun _ => Unstopped.pure _

/-! ## Blocks -/

/-- The code of a unit runs its block (30_encoding.md R105). -/
theorem exec_unitInstr (u : UnitId) (n : Word) (s : State) :
    exec (unitInstr u n) s = finishOp (unitProcess u n.toNat s) := by
  cases u <;> rfl

/-- Settles O48: a block that nothing stops is the fold of its frames. -/
theorem blocksAreTheirFrames : Obligations.BlocksAreTheirFrames := by
  refine ⟨fun s u n h => ?_, fun s n hn hb => ?_⟩
  · rw [exec_unitInstr, finishOp_of_unstopped (unstopped_unitProcess h), valueOf_unitBlock u s h.1]
  · exact (finishOp_of_unstopped (unstopped_preamp hn hb)).trans (congrArg _ (valueOf_preampBlock s hn))

end Sys2Proof.Proofs
end

section
/-! A PROCESS that is not bypassed, stage by stage (40_host_commands.md R135, 49_chain_and_meter.md R291, R294). A clean
block is a sequence of clean stages, and a clean stage completes as a code of its own. -/

namespace Sys2Proof.Proofs

open Sys2Proof Sys2Proof.Machine Sys2Proof.Safety

/-! ## The block peaks (R135) -/

/-- Peaks without a mark are those of frames that exist. -/
theorem le_maxblkMax_of_peaks {b : SampleBuffer} {k i : Nat} {pk : F32 × F32} (hi : i ≤ Config.maxblkMax)
    (hc : marksOf (peaks b k i pk) = {}) : i + k ≤ Config.maxblkMax := by
  induction k generalizing i pk with
  | zero => exact hi
  | succ k ih =>
    have hw := fun l r => writer_peaks b k (i + 1) (dMax pk.1 (dAbs l), dMax pk.2 (dAbs r))
    have hwr := fun l => Writer.bind (writer_bufRead b .right i) (hw l)
    rw [peaks] at hc
    obtain ⟨hl, hc⟩ := clean_bind hwr hc
    obtain ⟨-, hc⟩ := clean_bind (hw _) hc
    have := ih (lt_of_bufRead_range (range_of_clean hl)) hc
    omega

/-- The peak of one channel over the listed frames, from the peak so far. -/
def peakOver (b : SampleBuffer) (ch : Channel) (frames : List Nat) (pk : F32) : F32 :=
  frames.foldl (fun p i => dMax p (dAbs ((b.get? ch i).getD 0))) pk

/-- The peaks of frames that exist, channel by channel. -/
theorem valueOf_peaks {b : SampleBuffer} {k i : Nat} (hi : i + k ≤ Config.maxblkMax) (pk : F32 × F32) :
    valueOf (peaks b k i pk) =
      (peakOver b .left (List.range' i k) pk.1, peakOver b .right (List.range' i k) pk.2) := by
  induction k generalizing i pk with
  | zero => rfl
  | succ k ih =>
    have hw := fun l r => writer_peaks b k (i + 1) (dMax pk.1 (dAbs l), dMax pk.2 (dAbs r))
    rw [peaks, valueOf_bind _ fun l => Writer.bind (writer_bufRead b .right i) (hw l), valueOf_bind _ (hw _),
      valueOf_bufRead_getD _ _ (by omega), valueOf_bufRead_getD _ _ (by omega), ih (by omega)]
    rfl

/-- The peaks of a whole block without a mark. -/
theorem valueOf_peaks_of_clean {b : SampleBuffer} {n : Nat} (hc : marksOf (peaks b n 0 (k0, k0)) = {}) :
    valueOf (peaks b n 0 (k0, k0)) = (blockPeak b .left n, blockPeak b .right n) := by
  rw [valueOf_peaks (le_maxblkMax_of_peaks (Nat.zero_le _) hc), ← List.range_eq_range']
  rfl

/-! ## The meters (R294) -/

theorem valueOf_meterUpdate (k : MeterId) (pk : F32) (s : State) :
    valueOf (meterUpdate k pk s) = s.setMeter k (meterRule (s.meter k) pk) := rfl

theorem valueOf_meterBlock (pin pout : F32 × F32) (s : State) :
    valueOf (meterBlock pin pout s) = { s with meters :=
      { inL := meterRule s.meters.inL pin.1, inR := meterRule s.meters.inR pin.2
        outL := meterRule s.meters.outL pout.1, outR := meterRule s.meters.outR pout.2 } } := by
  have w1 := fun k pk t => writer_meterUpdate k pk t
  have w2 := fun t => Writer.bind (w1 .outL pout.1 t) (w1 .outR pout.2)
  have w3 := fun t => Writer.bind (w1 .inR pin.2 t) w2
  rw [meterBlock, valueOf_bind _ w3, valueOf_bind _ w2, valueOf_bind _ (w1 .outR pout.2)]
  simp only [valueOf_meterUpdate]
  rfl

/-! ## The stages -/

/-- A stage without a mark completes as a code of its own. -/
theorem finishOp_of_clean {c : Calc State} (hc : marksOf c = {}) : finishOp c = .next (valueOf c) :=
  finishOp_of_marks (by rw [hc]) (by rw [hc]) (by rw [hc])

theorem exec_unitInstr_of_clean {u : UnitId} {n : Word} {s : State} (hc : marksOf (unitProcess u n.toNat s) = {}) :
    exec (unitInstr u n) s = .next (valueOf (unitProcess u n.toNat s)) :=
  (exec_unitInstr u n s).trans (finishOp_of_clean hc)

theorem exec_preamp_of_clean {n : Word} {s : State} (hc : marksOf (preamp n.toNat s) = {}) :
    exec (.preamp n) s = .next (valueOf (preamp n.toNat s)) :=
  (show exec (.preamp n) s = finishOp (preamp n.toNat s) from rfl).trans (finishOp_of_clean hc)

theorem preamp_family (n : Nat) (s : State) : (valueOf (preamp n s)).family = s.family := rfl

theorem preamp_meters (n : Nat) (s : State) : (valueOf (preamp n s)).meters = s.meters := rfl

theorem unitProcess_meters (u : UnitId) (n : Nat) (s : State) : (valueOf (unitProcess u n s)).meters = s.meters := by
  cases u <;> rfl

/-- The chain without a mark is the codes of the five active units in category order (R291). -/
theorem runChain_stages {n : Word} {s : State} (hc : marksOf (runChain n.toNat s) = {}) :
    ∃ s1 s2 s3 s4,
      exec (unitInstr (chain s.family .distortion) n) s = .next s1 ∧
      exec (unitInstr (chain s.family .filter) n) s1 = .next s2 ∧
      exec (unitInstr (chain s.family .modulation) n) s2 = .next s3 ∧
      exec (unitInstr (chain s.family .delay) n) s3 = .next s4 ∧
      exec (unitInstr (chain s.family .reverb) n) s4 = .next (valueOf (runChain n.toNat s)) ∧
      (valueOf (runChain n.toNat s)).meters = s.meters := by
  have w1 := fun c t => writer_unitProcess (chain s.family c) n.toNat t
  have w2 := fun c t => Writer.bind (w1 c t) (w1 .reverb)
  have w3 := fun c t => Writer.bind (w1 c t) (w2 .delay)
  have w4 := fun c t => Writer.bind (w1 c t) (w3 .modulation)
  rw [runChain] at hc ⊢
  obtain ⟨c1, hc⟩ := clean_bind (w4 .filter) hc
  obtain ⟨c2, hc⟩ := clean_bind (w3 .modulation) hc
  obtain ⟨c3, hc⟩ := clean_bind (w2 .delay) hc
  obtain ⟨c4, c5⟩ := clean_bind (w1 .reverb) hc
  rw [valueOf_bind _ (w4 .filter), valueOf_bind _ (w3 .modulation), valueOf_bind _ (w2 .delay),
    valueOf_bind _ (w1 .reverb)]
  refine ⟨_, _, _, _, exec_unitInstr_of_clean c1, exec_unitInstr_of_clean c2, exec_unitInstr_of_clean c3,
    exec_unitInstr_of_clean c4, exec_unitInstr_of_clean c5, ?_⟩
  simp only [unitProcess_meters]

/-- The part of PROCESS that is not bypassed, without a mark: clean peaks, preamp and chain, and the meters (R135). -/
theorem processFrames_stages {n : Nat} {s : State} (hc : marksOf (processFrames n s) = {}) :
    marksOf (peaks s.buf n 0 (k0, k0)) = {} ∧ marksOf (preamp n s) = {} ∧
      marksOf (runChain n (valueOf (preamp n s))) = {} ∧
      valueOf (processFrames n s) =
        let t := valueOf (runChain n (valueOf (preamp n s)))
        { t with meters :=
          { inL := meterRule t.meters.inL (blockPeak s.buf .left n)
            inR := meterRule t.meters.inR (blockPeak s.buf .right n)
            outL := meterRule t.meters.outL (blockPeak t.buf .left n)
            outR := meterRule t.meters.outR (blockPeak t.buf .right n) } } := by
  have wb := fun i t o => writer_meterBlock i o t
  have wo := fun i t => Writer.bind (writer_peaks t.buf n 0 (k0, k0)) (wb i t)
  have wc := fun i t => Writer.bind (writer_runChain n t) (wo i)
  have wp := fun i => Writer.bind (writer_preamp n s) (wc i)
  rw [processFrames] at hc ⊢
  obtain ⟨ci, hc⟩ := clean_bind wp hc
  obtain ⟨cp, hc⟩ := clean_bind (wc _) hc
  obtain ⟨cc, hc⟩ := clean_bind (wo _) hc
  obtain ⟨co, -⟩ := clean_bind (wb _ _) hc
  refine ⟨ci, cp, cc, ?_⟩
  rw [valueOf_bind _ wp, valueOf_bind _ (wc _), valueOf_bind _ (wo _), valueOf_bind _ (wb _ _), valueOf_meterBlock,
    valueOf_peaks_of_clean ci, valueOf_peaks_of_clean co]

/-! ## PROCESS -/

/-- PROCESS, once its checks have passed (30_encoding.md R107). -/
theorem exec_process_allowed {n : Word} {s : State} (h : processAllowed n s) :
    exec (.process n) s = finishBlock (processBlock n.toNat s) := by
  obtain ⟨hport, hprep, hlen⟩ := h
  change execProcess n s = _
  rw [execProcess, onPort_allowed (by rw [hport]; rfl), if_neg (by simp [hprep]), if_neg (Nat.not_lt.mpr hlen)]

/-- A clean PROCESS that is not bypassed is its latch, its frames and one response, and its frames are clean. -/
theorem exec_process_sounding {n : Word} {s : State} (h : processAllowed n s) (hb : ¬ latchedBypass s = true)
    (hc : blockClean n.toNat s) :
    marksOf (processFrames n.toNat (latched s)) = {} ∧
      exec (.process n) s = .next ((valueOf (processFrames n.toNat (latched s))).respond 0) := by
  have wr : ∀ t : State, Writer (pure (t.respond 0)) := fun _ => Writer.pure _
  have wf := fun t => Writer.bind (writer_processFrames n.toNat t) wr
  rw [exec_process_allowed h, finishBlock_of_clean hc]
  rw [blockClean, processBlock_sounding _ hb] at hc
  obtain ⟨-, hc⟩ := clean_bind wf hc
  obtain ⟨hc, -⟩ := clean_bind wr hc
  rw [processBlock_sounding _ hb, valueOf_bind _ wf, valueOf_bind _ wr, valueOf_pure, latched]
  exact ⟨hc, rfl⟩

/-- Settles O23: the stages of a clean block, each the code of its own. -/
theorem processIsItsStages : Obligations.ProcessIsItsStages := by
  intro s n hallowed hbypass hclean
  obtain ⟨hc, hexec⟩ := exec_process_sounding hallowed (by simp [latchedBypass, hbypass]) hclean
  obtain ⟨-, cp, cc, hvalue⟩ := processFrames_stages hc
  obtain ⟨s3, s4, s5, s6, e3, e4, e5, e6, e7, hmeters⟩ := runChain_stages cc
  rw [preamp_family] at e3 e4 e5 e6 e7
  refine ⟨valueOf (preamp n.toNat (latched s)), s3, s4, s5, s6, _, exec_preamp_of_clean cp, e3, e4, e5, e6, e7, ?_⟩
  rw [hexec, hvalue]
  simp only [hmeters, preamp_meters]

end Sys2Proof.Proofs
end

section
/-! What PROCESS leaves alone (40_host_commands.md R135, 10_state.md R42, R43, 49_chain_and_meter.md R293), part by
part: the latch, the stages of the block, and the prepare-time constants through both. -/

namespace Sys2Proof.Proofs

open Sys2Proof Sys2Proof.Machine Sys2Proof.Safety

/-! ## The prepare-time constants (10_state.md R43) -/

/-- The two states hold the same prepare-time constants. -/
structure SameConstants (s t : State) : Prop where
  numSteps : ∀ v, (t.smoother v).numSteps = (s.smoother v).numSteps
  cap : ∀ d, (t.delay d).cap = (s.delay d).cap
  taps : taps t = taps s
  attack : t.units.rust.ca = s.units.rust.ca
  release : t.units.rust.cr = s.units.rust.cr
  coefs : ∀ x ∈ fixedFilters, coefsOf (t.filter x.1) = coefsOf (s.filter x.1)

theorem SameConstants.refl (s : State) : SameConstants s s :=
  ⟨fun _ => rfl, fun _ => rfl, rfl, rfl, rfl, fun _ _ => rfl⟩

theorem SameConstants.trans {s t u : State} (h : SameConstants s t) (h' : SameConstants t u) : SameConstants s u :=
  ⟨fun v => (h'.numSteps v).trans (h.numSteps v), fun d => (h'.cap d).trans (h.cap d), h'.taps.trans h.taps,
    h'.attack.trans h.attack, h'.release.trans h.release, fun x hx => (h'.coefs x hx).trans (h.coefs x hx)⟩

/-- The constants are registers of the preamp and the units. -/
theorem SameConstants.of_eq {s t : State} (hp : t.pre = s.pre) (hu : t.units = s.units) : SameConstants s t where
  numSteps v := by rw [smoother_congr hp hu]
  cap d := by rw [delay_congr hu]
  taps := by rw [Safety.taps, hu]; rfl
  attack := by rw [hu]
  release := by rw [hu]
  coefs x _ := by rw [filter_congr hp hu]

theorem numSteps_nextRule (v : Smoother) : (nextRule v).2.numSteps = v.numSteps := by
  unfold nextRule
  split <;> rfl

theorem numSteps_settargetRule (v : Smoother) (x : F32) : (settargetRule v x).numSteps = v.numSteps := by
  unfold settargetRule
  repeat' split
  all_goals rfl

/-- A smoother is no tap length and no envelope coefficient. -/
theorem lags_setSmoother (s : State) (v : SmootherId) (x : Smoother) :
    taps (s.setSmoother v x) = taps s ∧ (s.setSmoother v x).units.rust.ca = s.units.rust.ca ∧
      (s.setSmoother v x).units.rust.cr = s.units.rust.cr := by
  cases v with
  | mix u => cases u <;> exact ⟨rfl, rfl, rfl⟩
  | _ => exact ⟨rfl, rfl, rfl⟩

/-- SV.SETTARGET keeps the ramp length (41_smoother.md R162). -/
theorem sameConstants_retargeted (v : SmootherId) (x : F32) (s : State) : SameConstants s (retargeted v x s) := by
  obtain ⟨htaps, hca, hcr⟩ := lags_setSmoother s v (settargetRule (s.smoother v) x)
  refine ⟨fun w => ?_, fun d => ?_, htaps, hca, hcr, fun y _ => ?_⟩
  · rw [smoother_retargeted]
    split
    · next h => rw [h, numSteps_settargetRule]
    · rfl
  · rw [retargeted, delay_setSmoother]
  · rw [retargeted, filter_setSmoother]

theorem sameConstants_foldl_retargeted (h : Holders) (us : List UnitId) (s : State) :
    SameConstants s (us.foldl (fun t u => retargeted (.mix u) (h.get (.mix u)) t) s) := by
  induction us generalizing s with
  | nil => exact .refl s
  | cons u us ih => exact (sameConstants_retargeted _ _ s).trans (ih _)

theorem sameConstants_family (s : State) (f : Family) : SameConstants s { s with family := f } := .of_eq rfl rfl

theorem sameConstants_bypassPrev (s : State) (b : Bool) : SameConstants s { s with bypassPrev := b } := .of_eq rfl rfl

theorem sameConstants_applied (s : State) : SameConstants s (applied s) :=
  ((((sameConstants_retargeted .drive _ s).trans (sameConstants_retargeted .tone _ _)).trans
    (sameConstants_retargeted .out _ _)).trans (sameConstants_family _ _)).trans
      (sameConstants_foldl_retargeted _ _ _)

/-- RESET_STATE keeps the prepare-time constants (R143). -/
theorem sameConstants_resetState (s : State) : SameConstants s (resetState s) := by
  obtain ⟨hv, hf, hd, htaps, hca, hcr⟩ := keptByReset_resetState s
  exact ⟨fun v => (hv v).2, fun d => (hd d).1, htaps, hca, hcr, fun x _ => hf x.1⟩

theorem sameConstants_latched (s : State) : SameConstants s (latched s) := by
  rw [latched_eq]
  split
  · exact ((sameConstants_applied s).trans (sameConstants_resetState _)).trans (sameConstants_bypassPrev _ _)
  · exact sameConstants_applied s

/-- New coefficients for a filter that is not fixed. -/
theorem sameConstants_withFilterCoefs {f : FilterId} (hf : f ∉ fixedFilters.map (·.1)) (c : Coefs) (s : State) :
    SameConstants s (withFilterCoefs f c s) := by
  have hlags : taps (withFilterCoefs f c s) = taps s ∧ (withFilterCoefs f c s).units.rust.ca = s.units.rust.ca ∧
      (withFilterCoefs f c s).units.rust.cr = s.units.rust.cr := by cases f <;> exact ⟨rfl, rfl, rfl⟩
  obtain ⟨htaps, hca, hcr⟩ := hlags
  refine ⟨fun v => ?_, fun d => ?_, htaps, hca, hcr, fun x hx => ?_⟩
  · rw [withFilterCoefs, smoother_setFilter]
  · rw [withFilterCoefs, delay_setFilter]
  · have hne : x.1 ≠ f := fun e => hf (e ▸ List.mem_map_of_mem hx)
    rw [filter_withFilterCoefs, if_neg hne]

/-- A block start sets no fixed filter (42_biquad.md R178, 45_units_cathode.md R233). -/
theorem sameConstants_blockStarted (u : UnitId) (s : State) : SameConstants s (blockStarted u s) := by
  rcases blockStarted_cases u s with e | ⟨c, e⟩ | ⟨c, e⟩ <;> rw [e]
  · exact .refl s
  · exact (sameConstants_withFilterCoefs (by decide) c s).trans (sameConstants_withFilterCoefs (by decide) c _)
  · exact (sameConstants_withFilterCoefs (by decide) c s).trans (sameConstants_withFilterCoefs (by decide) c _)

theorem lags_unitFrame (u : UnitId) (s : State) (i : Nat) :
    taps (unitFrame u s i) = taps s ∧ (unitFrame u s i).units.rust.ca = s.units.rust.ca ∧
      (unitFrame u s i).units.rust.cr = s.units.rust.cr := by
  unfold unitFrame
  split
  · exact lags_setSmoother s _ _
  · cases u <;> exact ⟨rfl, rfl, rfl⟩

theorem sameConstants_unitFrame (u : UnitId) (s : State) (i : Nat) : SameConstants s (unitFrame u s i) := by
  obtain ⟨htaps, hca, hcr⟩ := lags_unitFrame u s i
  refine ⟨fun v => ?_, fun d => ?_, htaps, hca, hcr, fun x _ => coefs_unitFrame u s i x.1⟩
  · rw [smoother_unitFrame]
    split
    · next h => rw [h]; exact numSteps_nextRule _
    · rfl
  · rcases delay_unitFrame u s i d with e | ⟨_, _, e⟩ <;> rw [e]
    rfl

/-- A frame of the preamp sets the two shelves only (48_preamp.md R280). -/
theorem sameConstants_preampFrame (s : State) (i : Nat) : SameConstants s (preampFrame s i) := by
  refine ⟨fun v => ?_, fun d => by rw [delay_preampFrame], rfl, rfl, rfl, fun x hx => ?_⟩
  · rcases smoother_preampFrame s i v with e | e <;> rw [e]
    exact numSteps_nextRule _
  · have hne : ∀ x ∈ fixedFilters, ¬ (x.1 = .shelfL ∨ x.1 = .shelfR) := by decide
    rw [coefs_preampFrame, if_neg (hne x hx)]

/-- No frame and no meter update of a block changes a prepare-time constant. -/
theorem keptByFrames_sameConstants (s : State) : KeptByFrames (SameConstants s) where
  start t u h := h.trans (sameConstants_blockStarted u t)
  unit t u i h _ := h.trans (sameConstants_unitFrame u t i)
  preamp t i h _ := h.trans (sameConstants_preampFrame t i)
  meter t k _ h _ _ := h.trans (.of_eq (State.setMeter_pre t k _) (State.setMeter_units t k _))

/-! ## The latch (R135) -/

theorem setSmoother_frame (s : State) (v : SmootherId) (x : Smoother) (p : Preamp) (u : Units) :
    { s.setSmoother v x with pre := p, units := u } = { s with pre := p, units := u } := by
  cases v with
  | mix w => cases w <;> rfl
  | _ => rfl

/-- Every smoother is a register of the preamp or of a unit. -/
theorem restored_frame (s : State) (vs : List SmootherId) (t : State) (p : Preamp) (u : Units) :
    { restored s vs t with pre := p, units := u } = { t with pre := p, units := u } := by
  induction vs generalizing t with
  | nil => rfl
  | cons v vs ih => exact (ih _).trans (setSmoother_frame t v _ p u)

/-- APPLY_PARAMS changes the family, the preamp and the units only. -/
theorem applied_frame (s : State) : { applied s with family := s.family, pre := s.pre, units := s.units } = s := by
  have hs : restored s allSmoothers (applied s) = _ := smoothersFrom_applied s
  generalize applied s = t at hs ⊢
  have h := restored_frame s allSmoothers t s.pre s.units
  rw [hs] at h
  exact (congrArg (fun t : State => { t with family := s.family }) h).symm

theorem latched_frame (s : State) :
    { latched s with family := s.family, bypassPrev := s.bypassPrev, pre := s.pre, units := s.units
                     meters := s.meters } = s := by
  have h := applied_frame s
  rw [latched_eq]
  generalize applied s = t at h ⊢
  have h' := congrArg (fun t : State => { t with bypassPrev := s.bypassPrev, meters := s.meters }) h
  split <;> exact h'

/-- RESET_STATE is no latch of the family (R143). -/
theorem family_restarted (c : Prop) [Decidable c] (b : Bool) (t : State) :
    (if c then { resetState t with bypassPrev := b } else t).family = t.family := by
  split <;> rfl

theorem family_latched (s : State) : (latched s).family = familyOf s.holders.preampType := by
  rw [latched_eq, family_restarted, family_applied]

theorem bypassPrev_latched (s : State) : (latched s).bypassPrev = latchedBypass s := by
  rw [latched_eq]
  generalize applied s = t
  split
  · rfl
  · next h => exact Eq.symm (by simpa using h)

/-! ## The stages of a block -/

/-- What holds before the chain and is kept by the code of each active unit holds after it (R291). -/
theorem runChain_induct {P : State → Prop} {n : Nat} {s : State}
    (hunit : ∀ c t, P t → P (valueOf (unitProcess (chain s.family c) n t))) (h : P s) :
    P (valueOf (runChain n s)) := by
  have w1 := fun c t => writer_unitProcess (chain s.family c) n t
  have w2 := fun c t => Writer.bind (w1 c t) (w1 .reverb)
  have w3 := fun c t => Writer.bind (w1 c t) (w2 .delay)
  have w4 := fun c t => Writer.bind (w1 c t) (w3 .modulation)
  rw [runChain, valueOf_bind _ (w4 .filter), valueOf_bind _ (w3 .modulation), valueOf_bind _ (w2 .delay),
    valueOf_bind _ (w1 .reverb)]
  exact hunit _ _ (hunit _ _ (hunit _ _ (hunit _ _ (hunit _ _ h))))

/-- The chain changes the units and the buffer only. -/
theorem runChain_frame (n : Nat) (s : State) : { valueOf (runChain n s) with units := s.units, buf := s.buf } = s :=
  runChain_induct (P := fun t => { t with units := s.units, buf := s.buf } = s) (fun _ t h =>
    (congrArg (fun x : State => { x with units := s.units, buf := s.buf }) (unitProcess_frame _ n t)).trans h) rfl

/-- A unit's code leaves the registers of every other unit alone (45_units_cathode.md R230). -/
theorem sameUnit_unitProcess {u w : UnitId} (h : w ≠ u) (n : Nat) (s : State) :
    sameUnit s (valueOf (unitProcess u n s)) w := by
  cases u <;> cases w <;> first | exact absurd rfl h | exact rfl

theorem sameUnit_trans {s t u : State} {w : UnitId} (h : sameUnit s t w) (h' : sameUnit t u w) : sameUnit s u w := by
  cases w <;> exact Eq.trans h' h

theorem sameUnit_of_units {s t u : State} (hu : u.units = t.units) {w : UnitId} (h : sameUnit s t w) :
    sameUnit s u w := by
  cases w <;> exact (congrArg _ hu).trans h

theorem sameUnit_refl (s : State) (w : UnitId) : sameUnit s s w := by cases w <;> exact rfl

theorem sameUnit_runChain {n : Nat} {s : State} {w : UnitId} (h : ∀ c, w ≠ chain s.family c) :
    sameUnit s (valueOf (runChain n s)) w :=
  runChain_induct (P := fun t => sameUnit s t w)
    (fun c t ht => sameUnit_trans ht (sameUnit_unitProcess (h c) n t)) (sameUnit_refl s w)

/-- The two states hold the same words in the frames from `n` up. -/
def sameFrom (n : Nat) (s t : State) : Prop := ∀ ch i, n ≤ i → t.buf.get? ch i = s.buf.get? ch i

theorem get?_writeFrame_ne (b : SampleBuffer) {i j : Nat} (l r : F32) (ch : Channel) (h : j ≠ i) :
    (writeFrame b i l r).get? ch j = b.get? ch j := by
  rw [writeFrame, SampleBuffer.get?_set_index _ _ _ _ h, SampleBuffer.get?_set_index _ _ _ _ h]

/-- Frames of a block, each of which writes its own frame at most, leave the frames from its end up. -/
theorem sameFrom_foldl {F : State → Nat → State} {n : Nat}
    (hF : ∀ t, ∀ i < n, (F t i).buf = t.buf ∨ ∃ l r, (F t i).buf = writeFrame t.buf i l r) (s : State) :
    sameFrom n s ((List.range n).foldl F s) := by
  refine List.foldlRecOn (motive := sameFrom n s) _ _ (fun _ _ _ => rfl) fun t ht i hi => ?_
  have hin := List.mem_range.mp hi
  intro ch j hj
  rw [← ht ch j hj]
  rcases hF t i hin with e | ⟨l, r, e⟩ <;> rw [e]
  exact get?_writeFrame_ne _ _ _ _ (by omega)

theorem buf_blockStarted (u : UnitId) (s : State) : (blockStarted u s).buf = s.buf := by cases u <;> rfl

theorem sameFrom_unitProcess {n : Nat} (hn : n ≤ Config.maxblkMax) (u : UnitId) (s : State) :
    sameFrom n s (valueOf (unitProcess u n s)) := by
  have h := sameFrom_foldl (F := unitFrame u) (n := n) (fun t i hi =>
    (buf_unitFrame (.inr (by omega : i < Config.maxblkMax))).imp_right And.right) (blockStarted u s)
  rw [valueOf_unitBlock u s hn]
  exact fun ch i hi => (h ch i hi).trans (by rw [buf_blockStarted])

theorem sameFrom_preamp {n : Nat} (hn : n ≤ Config.maxblkMax) (s : State) : sameFrom n s (valueOf (preamp n s)) := by
  rw [valueOf_preampBlock s hn]
  exact sameFrom_foldl (fun _ _ _ => .inr ⟨_, _, rfl⟩) s

theorem sameFrom_runChain {n : Nat} (hn : n ≤ Config.maxblkMax) (s : State) :
    sameFrom n s (valueOf (runChain n s)) :=
  runChain_induct (P := sameFrom n s) (fun _ t ht ch i hi => (sameFrom_unitProcess hn _ t ch i hi).trans (ht ch i hi))
    fun _ _ _ => rfl

/-! ## The frames of PROCESS -/

/-- What the part of PROCESS after the latch leaves alone in a block of `n` frames. -/
structure BlockKeeps (n : Nat) (s t : State) : Prop where
  outside : { t with pre := s.pre, units := s.units, meters := s.meters, buf := s.buf } = s
  frames : sameFrom n s t
  inactive : ∀ w, (∀ c, w ≠ chain s.family c) → sameUnit s t w
  constants : SameConstants s t

theorem BlockKeeps.refl (n : Nat) (s : State) : BlockKeeps n s s :=
  ⟨rfl, fun _ _ _ => rfl, fun w _ => sameUnit_refl s w, .refl s⟩

/-- A clean block keeps what its stages keep (49_chain_and_meter.md R293). -/
theorem blockKeeps_processFrames {n : Nat} {s : State} (hc : marksOf (processFrames n s) = {}) :
    BlockKeeps n s (valueOf (processFrames n s)) := by
  obtain ⟨hpeaks, -, -, hvalue⟩ := processFrames_stages hc
  have hn : n ≤ Config.maxblkMax := by simpa using le_maxblkMax_of_peaks (Nat.zero_le _) hpeaks
  have hconst := (keptByFrames_sameConstants s).processFrames hc (.refl s)
  have hframe := runChain_frame n (valueOf (preamp n s))
  have hunits := fun w => sameUnit_runChain (n := n) (s := valueOf (preamp n s)) (w := w)
  have hbuf := sameFrom_runChain hn (valueOf (preamp n s))
  rw [hvalue] at hconst ⊢
  exact
    { outside := congrArg (fun t : State =>
        { t with pre := s.pre, units := s.units, meters := s.meters, buf := s.buf }) hframe
      frames := fun ch i hi => (hbuf ch i hi).trans (sameFrom_preamp hn s ch i hi)
      inactive := fun w hw => sameUnit_of_units rfl (hunits w hw)
      constants := hconst }

/-! ## PROCESS -/

/-- A clean PROCESS while bypassed is its latch and one response (R135, 49_chain_and_meter.md R295). -/
theorem exec_process_bypassed {n : Word} {s : State} (h : processAllowed n s) (hb : latchedBypass s = true)
    (hc : blockClean n.toNat s) : exec (.process n) s = .next ((latched s).respond 0) := by
  rw [exec_process_allowed h, finishBlock_of_clean hc, processBlock_bypassed _ hb,
    valueOf_bind _ fun _ => Writer.pure _, valueOf_pure, latched]

/-- A clean PROCESS, bypassed or not, keeps what its block keeps of the latched state, and answers once. -/
theorem exec_process_keeps {n : Word} {s : State} (h : processAllowed n s) (hc : blockClean n.toNat s) :
    ∃ t, exec (.process n) s = .next (t.respond 0) ∧ BlockKeeps n.toNat (latched s) t := by
  by_cases hb : latchedBypass s = true
  · exact ⟨_, exec_process_bypassed h hb hc, .refl _ _⟩
  · obtain ⟨hframes, hexec⟩ := exec_process_sounding h hb hc
    exact ⟨_, hexec, blockKeeps_processFrames hframes⟩

/-- With what the latch and the block may change put back, a state that keeps the latched one is the old one. -/
theorem BlockKeeps.restore {n : Nat} {s t : State} (h : BlockKeeps n (latched s) t) :
    { t with family := s.family, bypassPrev := s.bypassPrev, pre := s.pre, units := s.units, meters := s.meters
             buf := s.buf } = s := by
  have hlatch := latched_frame s
  obtain ⟨hout, -, -, -⟩ := h
  generalize latched s = l at hlatch hout
  exact (congrArg (fun x : State => { x with
    family := s.family, bypassPrev := s.bypassPrev, pre := s.pre, units := s.units, meters := s.meters
    buf := s.buf }) hout).trans (congrArg (fun x : State => { x with buf := s.buf }) hlatch)

/-- Settles O24: the latch and the block, each by what it keeps. -/
theorem processFrame : Obligations.ProcessFrame := by
  intro s n hallowed hclean
  obtain ⟨t, hexec, hkeeps⟩ := exec_process_keeps hallowed hclean
  have hrestore := hkeeps.restore
  have hfamily := family_latched s
  have hbypass : (latched s).bypassPrev = (s.holders.bypass != 0) := bypassPrev_latched s
  have hbuf := (samePeriphery_latched s).buf
  have hlatch := sameConstants_latched s
  generalize latched s = l at hkeeps hfamily hbypass hbuf hlatch ⊢
  obtain ⟨hout, hframes, hinactive, hconst⟩ := hkeeps
  have htf : t.family = l.family := (congrArg State.family hout :)
  have htb : t.bypassPrev = l.bypassPrev := (congrArg State.bypassPrev hout :)
  have haudio : t.audio = s.audio := (congrArg State.audio hrestore :)
  have hgranted : t.granted = .audio := (congrArg State.granted hrestore :).trans hallowed.1
  have hall : SameConstants s (t.respond 0) :=
    (hlatch.trans hconst).trans (.of_eq (State.respond_pre t 0) (State.respond_units t 0))
  refine ⟨t.respond 0, hexec, ?_, ?_, ?_, fun ch i hi => ?_, fun w hw => ?_, hall.numSteps, hall.cap, hall.taps,
    hall.attack, hall.release, hall.coefs, ?_⟩
  · rw [State.respond_family, htf, hfamily]
  · rw [State.respond_bypassPrev, htb, hbypass]
  · rw [respond_audio hgranted, haudio]
  · rw [State.respond_buf, hframes ch i hi, hbuf]
  · rw [State.respond_family, htf] at hw
    exact sameUnit_of_units (State.respond_units t 0) (hinactive w hw)
  · rw [respond_audio hgranted]
    exact congrArg (fun x : State => { x with audio := s.audio }) hrestore

end Sys2Proof.Proofs
end

section
/-! The smoother instructions (41_smoother.md R161 to R164) and the ramp they make (R166): each instruction as its rule, and
a ramp of `numSteps` calls of SV.NEXT by induction on the steps that remain. -/

namespace Sys2Proof.Proofs

open Sys2Proof Sys2Proof.Machine Sys2Proof.Safety

/-! ## One instruction -/

theorem valueOf_svReset (v : Smoother) (sr t : F32) :
    valueOf (v.reset sr t) = snapRule { v with numSteps := ceilNat (fMul t sr) } := rfl

theorem exec_svSnap (s : State) (v : SmootherId) :
    exec (.svSnap v) s = .next (s.setSmoother v (snapRule (s.smoother v))) := rfl

theorem exec_svReset (s : State) (v : SmootherId) (sr t : F32) :
    exec (.svReset v sr t) s =
      .next (s.setSmoother v (snapRule { s.smoother v with numSteps := ceilNat (fMul t sr) })) := by
  rw [← valueOf_svReset (s.smoother v) sr t]
  rfl

theorem exec_svSettarget (s : State) (v : SmootherId) (t : F32) :
    exec (.svSettarget v t) s = .next (retargeted v t s) := by
  rw [retargeted, ← valueOf_setTarget]
  rfl

/-- The state after SV.NEXT: the smoother advanced, its value on the result wire (log 5). -/
def advancedOnce (v : SmootherId) (s : State) : State :=
  (s.setSmoother v (nextRule (s.smoother v)).2).setWires [(nextRule (s.smoother v)).1]

theorem exec_svNext (s : State) (v : SmootherId) : exec (.svNext v) s = .next (advancedOnce v s) := by
  rw [advancedOnce, ← valueOf_next]
  rfl

theorem exec_svCurrent (s : State) (v : SmootherId) :
    exec (.svCurrent v) s = .next (s.setWires [(s.smoother v).current]) := rfl

/-- Settles O30: both are the snap, SV.RESET with the new ramp length. -/
theorem svResetSnap : Obligations.SvResetSnap := fun s v sr t => ⟨exec_svSnap s v, exec_svReset s v sr t⟩

/-- Settles O31: the equation of SV.SETTARGET. -/
theorem svSettarget : Obligations.SvSettarget := exec_svSettarget

/-- Settles O32: the equations of SV.NEXT and SV.CURRENT. -/
theorem svNextCurrent : Obligations.SvNextCurrent := fun s v => ⟨exec_svNext s v, exec_svCurrent s v⟩

/-! ## One step of a ramp -/

@[simp] theorem smoother_advancedOnce (v : SmootherId) (s : State) :
    (advancedOnce v s).smoother v = (nextRule (s.smoother v)).2 :=
  (smoother_congr (State.setWires_pre _ _) (State.setWires_units _ _) v).trans (State.setSmoother_smoother s v _)

@[simp] theorem wires_advancedOnce (v : SmootherId) (s : State) :
    (advancedOnce v s).wires = [(nextRule (s.smoother v)).1] := rfl

@[simp] theorem target_nextRule (x : Smoother) : (nextRule x).2.target = x.target := by
  unfold nextRule
  split <;> rfl

@[simp] theorem stepsRemaining_nextRule (x : Smoother) : (nextRule x).2.stepsRemaining = x.stepsRemaining - 1 := by
  unfold nextRule
  split
  · next hidle => rw [hidle]
  · rfl

theorem nextRule_idle {x : Smoother} (h : x.stepsRemaining = 0) : nextRule x = (x.current, x) := if_pos h

/-- The last step of a ramp answers the target itself, whatever the increments before it added up to. -/
theorem nextRule_last {x : Smoother} (h : x.stepsRemaining = 1) : (nextRule x).1 = x.target := by
  simp [nextRule, h]

theorem settargetRule_ramp {x : Smoother} {t : F32} (hne : dEq t x.target = false) (hlen : 1 ≤ x.numSteps) :
    (settargetRule x t).target = t ∧ (settargetRule x t).stepsRemaining = x.numSteps := by
  have hlen : x.numSteps ≠ 0 := by omega
  simp [settargetRule, hne, hlen]

/-! ## The whole ramp -/

/-- The smoother is idle on the target `t`, and the last answer was `t`. -/
structure Landed (v : SmootherId) (t : F32) (b : State) : Prop where
  wires : b.wires = [t]
  current : (b.smoother v).current = t
  target : (b.smoother v).target = t
  idle : (b.smoother v).stepsRemaining = 0

theorem landed_of_last {v : SmootherId} {s : State} (h : (s.smoother v).stepsRemaining = 1) :
    Landed v (s.smoother v).target (advancedOnce v s) where
  wires := by rw [wires_advancedOnce, nextRule_last h]
  current := by rw [smoother_advancedOnce, ← nextRule_value, nextRule_last h]
  target := by rw [smoother_advancedOnce, target_nextRule]
  idle := by rw [smoother_advancedOnce, stepsRemaining_nextRule, h]

/-- One more SV.NEXT answers the target again and changes nothing. -/
theorem Landed.svNext_same {v : SmootherId} {t : F32} {b : State} (h : Landed v t b) :
    exec (.svNext v) b = .next b := by
  have hwires : b.setWires [t] = b := by rw [← h.wires]; rfl
  rw [exec_svNext, advancedOnce, nextRule_idle h.idle, setSmoother_self, h.current, hwires]

theorem repeated_svNext_succ (k : Nat) (v : SmootherId) (s : State) :
    repeated (k + 1) (.svNext v) s = repeated k (.svNext v) (advancedOnce v s) := by
  rw [repeated, exec_svNext]

/-- As many calls of SV.NEXT as steps remain land on the target. -/
theorem repeated_svNext_landed (v : SmootherId) {k : Nat} {s : State} (h : (s.smoother v).stepsRemaining = k + 1) :
    ∃ b, repeated (k + 1) (.svNext v) s = .next b ∧ Landed v (s.smoother v).target b := by
  induction k generalizing s with
  | zero => exact ⟨_, repeated_svNext_succ 0 v s, landed_of_last h⟩
  | succ k ih =>
    have hsteps : ((advancedOnce v s).smoother v).stepsRemaining = k + 1 := by simp [h]
    obtain ⟨b, hrun, hland⟩ := ih hsteps
    rw [smoother_advancedOnce, target_nextRule] at hland
    exact ⟨b, (repeated_svNext_succ _ v s).trans hrun, hland⟩

/-- Settles O33: SV.SETTARGET leaves `numSteps` steps to the new target, and that many calls land on it. -/
theorem rampEndsOnTarget : Obligations.RampEndsOnTarget := by
  intro s v t hne hlen
  obtain ⟨htarget, hsteps⟩ := settargetRule_ramp hne hlen
  obtain ⟨k, hk⟩ := Nat.exists_eq_succ_of_ne_zero (Nat.one_le_iff_ne_zero.mp hlen)
  have hsmoother : (retargeted v t s).smoother v = settargetRule (s.smoother v) t := State.setSmoother_smoother s v _
  have hremaining : ((retargeted v t s).smoother v).stepsRemaining = k + 1 := by rw [hsmoother, hsteps, hk]
  obtain ⟨b, hrun, hland⟩ := repeated_svNext_landed v hremaining
  rw [hsmoother, htarget] at hland
  exact ⟨_, b, exec_svSettarget s v t, hk ▸ hrun, hland.wires, hland.current, hland.target, hland.idle,
    hland.svNext_same⟩

end Sys2Proof.Proofs
end

section
/-! The filter instructions (42_biquad.md R170 to R177): each instruction as its rule, and the filter at rest (R170, R181;
log 30): a product with a zero is a zero, a sum of zeros is a zero, so five products and four sums of zeros are one. -/

namespace Sys2Proof.Proofs

open Sys2Proof Sys2Proof.Machine Sys2Proof.Safety

/-! ## One instruction -/

/-- The state after BQ.PROCESS: the history shifted, the answer on the result wire (log 5). -/
def filteredOnce (f : FilterId) (x : F32) (s : State) : State :=
  (s.setFilter f (bqNext (s.filter f) x)).setWires [bqOut (s.filter f) x]

theorem exec_bqProcess (s : State) (f : FilterId) (x : F32) : exec (.bqProcess f x) s = .next (filteredOnce f x s) := by
  have h : exec (.bqProcess f x) s = .next ((s.setFilter f (valueOf ((s.filter f).process x)).2).setWires
      [(valueOf ((s.filter f).process x)).1]) := rfl
  rw [h, valueOf_bqProcess]
  rfl

theorem exec_bqReset (s : State) (f : FilterId) : exec (.bqReset f) s = .next (s.setFilter f (s.filter f).reset) := rfl

theorem exec_bqSetc (s : State) (f : FilterId) (k : FilterKind) (fc q sr g : F32) :
    exec (.bqSetc f k fc q sr g) s = .next (s.setFilter f (withCoefs (s.filter f) (coefRule k fc q sr g))) := by
  rw [← valueOf_setc]
  rfl

/-- The codes of the three kinds that carry no gain are BQ.SETC with the gain zero (log 26). -/
theorem exec_bqSetc_kinds (s : State) (f : FilterId) (fc q sr g : F32) :
    exec (.bqSetcLp f fc q sr) s = exec (.bqSetc f .lp fc q sr 0) s ∧
    exec (.bqSetcHp f fc q sr) s = exec (.bqSetc f .hp fc q sr 0) s ∧
    exec (.bqSetcBp f fc q sr) s = exec (.bqSetc f .bp fc q sr 0) s ∧
    exec (.bqSetcLs f fc q sr g) s = exec (.bqSetc f .ls fc q sr g) s := ⟨rfl, rfl, rfl, rfl⟩

/-- Settles O25: each kind's code is BQ.SETC of that kind. -/
theorem setcCookbook : Obligations.SetcCookbook := by
  intro s f fc q sr g
  obtain ⟨hlp, hhp, hbp, hls⟩ := exec_bqSetc_kinds s f fc q sr g
  rw [hlp, hhp, hbp, hls]
  exact ⟨exec_bqSetc .., exec_bqSetc .., exec_bqSetc .., exec_bqSetc .., fun k => exec_bqSetc s f k fc q sr g⟩

/-- Settles O26: the equation of BQ.PROCESS. -/
theorem bqRecurrence : Obligations.BqRecurrence := exec_bqProcess

/-- Settles O27: the equation of BQ.RESET. -/
theorem bqResetHistory : Obligations.BqResetHistory := exec_bqReset

/-! ## Arithmetic of zeros (00_scope.md R7) -/

/-- A zero of either sign. -/
def isZero (x : F32) : Prop := x = 0x00000000#32 ∨ x = 0x80000000#32

theorem isZero_signedZero (s : Bool) : isZero (signedZero s) := by
  cases s
  · exact .inl rfl
  · exact .inr rfl

theorem isZero.eq_signedZero {x : F32} (h : isZero x) : x = signedZero (fSign x) := by
  obtain rfl | rfl := h <;> decide

theorem fUnits_signedZero (s : Bool) : fUnits (signedZero s) = 0 := by cases s <;> rfl

theorem fValue_signedZero (s : Bool) : fValue (signedZero s) = 0 := by cases s <;> rfl

theorem isFin_signedZero (s : Bool) : isFin (signedZero s) = true := by cases s <;> rfl

/-- Nothing is rounded to a zero. -/
theorem isZero_fRound_zero (s : Bool) {den : Nat} (hd : 0 < den) : isZero (fRound s 0 den) := by
  rw [fRound, roundMag_zero hd]
  cases s
  · exact .inl rfl
  · exact .inr rfl

/-- A finite coefficient times a zero is a zero. -/
theorem isZero.mul {a x : F32} (ha : isFin a = true) (hx : isZero x) : isZero (fMul a x) := by
  rw [hx.eq_signedZero, fMul_of_isFin ha (isFin_signedZero _), fUnits_signedZero, Nat.mul_zero]
  exact isZero_fRound_zero _ (by decide)

theorem isZero.add {x y : F32} (hx : isZero x) (hy : isZero y) : isZero (fAdd x y) := by
  rw [hx.eq_signedZero, hy.eq_signedZero, fAdd]
  simp only [not_nan_inf (isFin_signedZero _), fValue_signedZero, Bool.or_false, Bool.false_eq_true, if_false, add_zero,
    if_true]
  exact isZero_signedZero _

theorem isZero.neg {x : F32} (hx : isZero x) : isZero (fNeg x) := by
  obtain rfl | rfl := hx
  · exact .inr rfl
  · exact .inl rfl

theorem isZero.sub {x y : F32} (hx : isZero x) (hy : isZero y) : isZero (fSub x y) := hx.add hy.neg

/-! ## The filter at rest -/

/-- All four words of the history are zeros. -/
structure AtRest (b : Biquad) : Prop where
  x1 : isZero b.x1
  x2 : isZero b.x2
  y1 : isZero b.y1
  y2 : isZero b.y2

/-- All five coefficients are finite. -/
structure FiniteCoefs (c : Coefs) : Prop where
  b0 : isFin c.b0 = true
  b1 : isFin c.b1 = true
  b2 : isFin c.b2 = true
  a1 : isFin c.a1 = true
  a2 : isFin c.a2 = true

theorem AtRest.isZero_bqOut {b : Biquad} {x : F32} (h : AtRest b) (hc : FiniteCoefs (coefsOf b)) (hx : isZero x) :
    isZero (bqOut b x) :=
  have forward : isZero (fAdd (fAdd (fMul b.b0 x) (fMul b.b1 b.x1)) (fMul b.b2 b.x2)) :=
    ((hx.mul hc.b0).add (h.x1.mul hc.b1)).add (h.x2.mul hc.b2)
  (forward.sub (h.y1.mul hc.a1)).sub (h.y2.mul hc.a2)

theorem AtRest.next {b : Biquad} {x : F32} (h : AtRest b) (hc : FiniteCoefs (coefsOf b)) (hx : isZero x) :
    AtRest (bqNext b x) where
  x1 := hx
  x2 := h.x1
  y1 := h.isZero_bqOut hc hx
  y2 := h.y1

theorem filter_filteredOnce (f : FilterId) (x : F32) (s : State) :
    (filteredOnce f x s).filter f = bqNext (s.filter f) x := by
  rw [filteredOnce, filter_congr (State.setWires_pre _ _) (State.setWires_units _ _), State.setFilter_filter]

/-- Settles O28: a filter at rest stays at rest and answers a zero. -/
theorem bqZeroInZeroOut : Obligations.BqZeroInZeroOut := by
  intro s f x z b hb0 hb1 hb2 ha1 ha2 hx hx1 hx2 hy1 hy2
  have hrest : AtRest b := ⟨hx1, hx2, hy1, hy2⟩
  have hfin : FiniteCoefs (coefsOf b) := ⟨hb0, hb1, hb2, ha1, ha2⟩
  obtain ⟨hx1', hx2', hy1', hy2'⟩ := hrest.next hfin hx
  refine ⟨filteredOnce f x s, bqOut b x, exec_bqProcess s f x, State.setWires_wires _ _, hrest.isZero_bqOut hfin hx, ?_⟩
  rw [filter_filteredOnce]
  exact ⟨hx1', hx2', hy1', hy2', coefsOf_bqNext b x⟩

end Sys2Proof.Proofs
end

section
/-! The delay-line instructions (43_delay_line.md R190 to R197): each instruction as its rule, and the round trip of R197: a
write-advance pair makes every lag one longer, so the pair written stands at lag 1 and then moves one lag a pair until the
position comes round to its word again. -/

namespace Sys2Proof.Proofs

open Sys2Proof Sys2Proof.Machine Sys2Proof.Safety

/-! ## One instruction -/

/-- An operation on a delay memory that stops nothing itself ends by the size of the memory alone (log 17). -/
theorem finishOp_needSize (cap : Nat) {f : Unit → Calc State} (hf : ∀ a, Unstopped (f a)) :
    finishOp (needSize cap >>= f) = if cap = 0 then .fault .delayUnsized else .next (valueOf (needSize cap >>= f)) := by
  split
  · next hcap =>
    have hm : stopMarks (marksOf (needSize cap >>= f)) = (false, true, false) := by
      rw [hcap]; exact hf () (marksOf (needSize 0))
    simp only [stopMarks, Prod.mk.injEq] at hm
    obtain ⟨hr, hu, hw⟩ := hm
    rcases finishOp_cases (needSize cap >>= f) with ⟨-, e⟩ | ⟨e, -⟩ | ⟨-, e⟩ | ⟨-, -, e, -⟩
    · simp [hr] at e
    · exact e
    · simp [hw] at e
    · simp [hu] at e
  · next hcap => exact finishOp_of_unstopped (.bind (unstopped_needSize hcap) hf)

theorem exec_dlSize (s : State) (d : DelayId) (tmax : F32) (guard : Nat) (sr : F32) :
    exec (.dlSize d tmax guard sr) s =
      .next (s.setDelay d { s.delay d with cap := ceilNat (fMul tmax sr) + guard }) := by
  rw [← valueOf_dlSize]
  rfl

theorem exec_dlClear (s : State) (d : DelayId) : exec (.dlClear d) s = .next (s.setDelay d (s.delay d).clear) := rfl

theorem exec_dlWrite (s : State) (d : DelayId) (vL vR : F32) :
    exec (.dlWrite d vL vR) s =
      if (s.delay d).cap = 0 then .fault .delayUnsized else .next (s.setDelay d ((s.delay d).write vL vR)) :=
  finishOp_needSize _ fun _ => .pure _

theorem exec_dlAdvance (s : State) (d : DelayId) :
    exec (.dlAdvance d) s =
      if (s.delay d).cap = 0 then .fault .delayUnsized else .next (s.setDelay d (s.delay d).advance) :=
  finishOp_needSize _ fun _ => .pure _

theorem exec_dlReadi (s : State) (d : DelayId) (lag : Nat) :
    exec (.dlReadi d lag) s =
      if (s.delay d).cap = 0 then .fault .delayUnsized
      else .next (s.setWires [tapRule (s.delay d) .left lag, tapRule (s.delay d) .right lag]) :=
  finishOp_needSize _ fun _ => .pure _

theorem exec_dlReadf (s : State) (d : DelayId) (ch : Channel) (t : F32) :
    exec (.dlReadf d ch t) s =
      if (s.delay d).cap = 0 then .fault .delayUnsized else .next (s.setWires [fracRule (s.delay d) ch t]) := by
  have hvalue : valueOf (cReadF (s.delay d) ch t >>= fun y => pure (s.setWires [y])) =
      s.setWires [fracRule (s.delay d) ch t] := by
    rw [valueOf_bind _ fun _ => Writer.pure _, valueOf_cReadF, valueOf_pure]
  rw [← hvalue]
  exact finishOp_needSize _ fun _ => .bind (unstopped_readF (s.delay d) ch t) fun y => .pure (s.setWires [y])

/-! ## The words of a memory -/

/-- The word of a stereo pair that goes to a channel. -/
def pairWord (v : F32 × F32) : Channel → F32
  | .left => v.1
  | .right => v.2

theorem get_write (l : DelayLine) (v : F32 × F32) (ch : Channel) (i : Nat) :
    (l.write v.1 v.2).get ch i = if i = l.writePos then pairWord v ch else l.get ch i := by
  split
  · next hi => subst hi; cases ch <;> exact Words.dlyGet_dlySet _ _ _
  · next hi => cases ch <;> exact Words.dlyGet_dlySet_ne _ _ hi

/-- Settles O34: the equations of DL.SIZE and DL.CLEAR. -/
theorem dlSizeClear : Obligations.DlSizeClear := by
  intro s d tmax guard sr
  refine ⟨exec_dlSize s d tmax guard sr, _, exec_dlClear s d, ?_⟩
  rw [State.setDelay_delay]
  exact ⟨rfl, rfl, rfl, get_clear _⟩

/-- Settles O35: the equations of DL.WRITE and DL.ADVANCE, on a memory with a size and on one without. -/
theorem dlWriteAdvance : Obligations.DlWriteAdvance := by
  intro s d vL vR
  rw [exec_dlWrite, exec_dlAdvance]
  refine ⟨fun hsized => ?_, fun hunsized => ⟨if_pos hunsized, if_pos hunsized⟩⟩
  refine ⟨⟨_, if_neg hsized, ?_⟩, if_neg hsized⟩
  rw [State.setDelay_delay]
  refine ⟨rfl, rfl, rfl, fun ch i => ?_⟩
  cases ch <;> exact get_write _ (vL, vR) _ i

/-- Settles O36: the equations of DL.READI and DL.READF, on a memory with a size and on one without. -/
theorem dlTaps : Obligations.DlTaps := by
  intro s d lag ch t
  rw [exec_dlReadi, exec_dlReadf]
  exact ⟨fun hsized => ⟨if_neg hsized, if_neg hsized⟩, fun hunsized => ⟨if_pos hunsized, if_pos hunsized⟩⟩

/-! ## One write-advance pair -/

theorem get_pushRule (l : DelayLine) (v : F32 × F32) (ch : Channel) (i : Nat) :
    (pushRule l v.1 v.2).get ch i = if i = l.writePos then pairWord v ch else l.get ch i :=
  get_write l v ch i

/-- The advance makes the lag of every word one longer. -/
theorem tapIndex_pushRule (l : DelayLine) (vL vR : F32) (k : Nat) :
    (pushRule l vL vR).tapIndex (k + 1) = l.tapIndex k := by
  have h : (((l.writePos + 1) % l.cap : Nat) - (k + 1 : Nat) : Int) % l.cap = (l.writePos - k : Int) % l.cap := by
    rw [Int.natCast_mod, Int.emod_sub_emod]
    congr 1
    omega
  exact congrArg Int.toNat h

theorem tapIndex_zero {l : DelayLine} (h : l.writePos < l.cap) : l.tapIndex 0 = l.writePos := by
  have hmod : ((l.writePos : Int) - (0 : Nat)) % l.cap = l.writePos := by
    rw [Int.natCast_zero, Int.sub_zero]
    exact Int.emod_eq_of_lt (by omega) (by omega)
  exact congrArg Int.toNat hmod

/-- Of the lags below the capacity only lag 0 reads the word at the position. -/
theorem tapIndex_ne_writePos {l : DelayLine} {k : Nat} (hk : 0 < k) (hcap : k < l.cap) : l.tapIndex k ≠ l.writePos := by
  intro h
  have hmod : ((l.writePos : Int) - k) % l.cap = l.writePos := by
    have hnonneg := Int.emod_nonneg ((l.writePos : Int) - k) (b := l.cap) (by omega)
    rw [← Int.toNat_of_nonneg hnonneg]
    exact congrArg Int.ofNat h
  have hdvd : (l.cap : Int) ∣ k := by simpa only [Int.sub_sub_self] using Int.dvd_sub_self_of_emod_eq hmod
  exact absurd (Nat.le_of_dvd hk (Int.natCast_dvd_natCast.mp hdvd)) (Nat.not_le.mpr hcap)

theorem tapRule_eq (l : DelayLine) (ch : Channel) (k : Nat) : tapRule l ch k = l.get ch (l.tapIndex k) := rfl

/-- The pair just written is at lag 1 (R192, R193, R195). -/
theorem tapRule_pushRule_one {l : DelayLine} (h : l.writePos < l.cap) (v : F32 × F32) (ch : Channel) :
    tapRule (pushRule l v.1 v.2) ch 1 = pairWord v ch := by
  rw [tapRule_eq, tapIndex_pushRule, tapIndex_zero h, get_pushRule, if_pos rfl]

/-- Every other word is at a lag one longer than before; the word at lag `cap` is the one overwritten. -/
theorem tapRule_pushRule_succ {l : DelayLine} {k : Nat} (hk : 0 < k) (hcap : k < l.cap) (v : F32 × F32) (ch : Channel) :
    tapRule (pushRule l v.1 v.2) ch (k + 1) = tapRule l ch k := by
  rw [tapRule_eq, tapIndex_pushRule, get_pushRule, if_neg (tapIndex_ne_writePos hk hcap), tapRule_eq]

/-! ## The round trip (R197) -/

/-- The state after DL.WRITE and DL.ADVANCE. -/
def pushedOnce (d : DelayId) (v : F32 × F32) (s : State) : State := s.setDelay d (pushRule (s.delay d) v.1 v.2)

theorem delay_pushedOnce (d : DelayId) (v : F32 × F32) (s : State) :
    (pushedOnce d v s).delay d = pushRule (s.delay d) v.1 v.2 := State.setDelay_delay s d _

theorem pushedOnce_inside {d : DelayId} {s : State} (h : (s.delay d).writePos < (s.delay d).cap) (v : F32 × F32) :
    ((pushedOnce d v s).delay d).writePos < ((pushedOnce d v s).delay d).cap := by
  rw [delay_pushedOnce]
  exact Nat.mod_lt _ (Nat.zero_lt_of_lt h)

theorem setDelay_setDelay (s : State) (d : DelayId) (x y : DelayLine) :
    (s.setDelay d x).setDelay d y = s.setDelay d y := by cases d <;> rfl

theorem pushed_cons {d : DelayId} {s : State} (h : (s.delay d).cap ≠ 0) (v : F32 × F32) (vs : List (F32 × F32)) :
    pushed d (v :: vs) s = pushed d vs (pushedOnce d v s) := by
  have hwrite : exec (.dlWrite d v.1 v.2) s = .next (s.setDelay d ((s.delay d).write v.1 v.2)) := by
    rw [exec_dlWrite, if_neg h]
  have hadvance : exec (.dlAdvance d) (s.setDelay d ((s.delay d).write v.1 v.2)) = .next (pushedOnce d v s) := by
    rw [exec_dlAdvance, State.setDelay_delay, setDelay_setDelay]
    exact if_neg h
  simp only [pushed, hwrite, hadvance]

/-- What lag `k` reads before some write-advance pairs, it reads after them at a lag longer by their number. -/
theorem pushed_tapRule {d : DelayId} (vs : List (F32 × F32)) {s : State} {k : Nat} (hk : 0 < k)
    (hpos : (s.delay d).writePos < (s.delay d).cap) (hlen : k + vs.length ≤ (s.delay d).cap) :
    ∃ t, pushed d vs s = .next t ∧ (t.delay d).writePos < (t.delay d).cap ∧
      ∀ ch, tapRule (t.delay d) ch (k + vs.length) = tapRule (s.delay d) ch k := by
  induction vs generalizing s k with
  | nil => exact ⟨s, rfl, hpos, fun _ => rfl⟩
  | cons v vs ih =>
    rw [List.length_cons, ← Nat.succ_add_eq_add_succ] at hlen ⊢
    have hlen' : k + 1 + vs.length ≤ ((pushedOnce d v s).delay d).cap := by rwa [delay_pushedOnce]
    obtain ⟨t, hrun, hpos', htap⟩ := ih k.succ_pos (pushedOnce_inside hpos v) hlen'
    rw [← pushed_cons (Nat.ne_zero_of_lt hpos)] at hrun
    refine ⟨t, hrun, hpos', fun ch => (htap ch).trans ?_⟩
    rw [delay_pushedOnce, tapRule_pushRule_succ hk (by omega)]

/-- Settles O37: the first pair puts its words at lag 1, the others move them to lag `k`. -/
theorem delayRoundTrip : Obligations.DelayRoundTrip := by
  intro s d v vs hpos hlen
  have hlen' : 1 + vs.length ≤ ((pushedOnce d v s).delay d).cap := by rwa [delay_pushedOnce, Nat.add_comm]
  obtain ⟨t, hrun, hpos', htap⟩ := pushed_tapRule vs Nat.one_pos (pushedOnce_inside hpos v) hlen'
  rw [← pushed_cons (Nat.ne_zero_of_lt hpos)] at hrun
  refine ⟨t, hrun, hpos', ?_⟩
  rw [exec_dlReadi, if_neg (Nat.ne_zero_of_lt hpos'), Nat.add_comm, htap, htap, delay_pushedOnce,
    tapRule_pushRule_one hpos, tapRule_pushRule_one hpos]
  rfl

end Sys2Proof.Proofs
end

section
/-! The primitives (44_primitives.md R205 to R218): each instruction as its rule, and the range of the three shapers that
saturate: a number is in [-1, 1] exactly if its magnitude bits are at most those of 1, whatever its sign. -/

namespace Sys2Proof.Proofs

open Sys2Proof Sys2Proof.Machine Sys2Proof.Safety

/-! ## One instruction -/

theorem exec_hardclip (s : State) (x : F32) : exec (.hardclip x) s = .next (s.setWires [clipRule x]) := rfl

theorem exec_xfmrSat (s : State) (x : F32) : exec (.xfmrSat x) s = .next (s.setWires [xfmrRule x]) := by
  rw [← valueOf_xfmrSat]
  rfl

theorem exec_softclip (s : State) (x : F32) : exec (.softclip x) s = .next (s.setWires [softRule x]) := by
  rw [← valueOf_softclip]
  rfl

theorem exec_emberShape (s : State) (x : F32) : exec (.emberShape x) s = .next (s.setWires [emberRule x]) := by
  rw [← valueOf_emberShape]
  rfl

theorem exec_quant (s : State) (x nb : F32) : exec (.quant x nb) s = .next (s.setWires [quantRule x nb]) := by
  rw [← valueOf_quant]
  rfl

theorem exec_rectify (s : State) (x : F32) : exec (.rectify x) s = .next (s.setWires [dAbs x]) := rfl

theorem exec_lfoAdvance (s : State) (p rate sr : F32) :
    exec (.lfoAdvance p rate sr) s = .next (s.setWires [lfoRule p rate sr]) := by
  rw [← valueOf_lfoAdvance]
  rfl

theorem exec_lfoSine (s : State) (p : F32) : exec (.lfoSine p) s = .next (s.setWires [sineRule p]) := by
  rw [← valueOf_lfoSine]
  rfl

theorem exec_lfoTri (s : State) (p : F32) : exec (.lfoTri p) s = .next (s.setWires [triRule p]) := by
  rw [← valueOf_lfoTri]
  rfl

theorem exec_envCoef (s : State) (t sr : F32) : exec (.envCoef t sr) s = .next (s.setWires [envCoefRule t sr]) := by
  rw [← valueOf_envCoef]
  rfl

theorem exec_envStep (s : State) (env lvl ca cr : F32) :
    exec (.envStep env lvl ca cr) s = .next (s.setWires [envRule env lvl ca cr]) := by
  rw [← valueOf_envStep]
  rfl

theorem exec_gate (s : State) (env : F32) : exec (.gate env) s = .next (s.setWires [gateRule env]) := by
  rw [← valueOf_gate]
  rfl

theorem exec_meterUpdate (s : State) (k : MeterId) (pk : F32) :
    exec (.meterUpdate k pk) s = .next (s.setMeter k (meterRule (s.meter k) pk)) := by
  rw [← valueOf_meterNext]
  rfl

theorem exec_db2lin (s : State) (o : F32) : exec (.db2lin o) s = .next (s.setWires [gainRule o]) := by
  rw [← valueOf_db2lin]
  rfl

theorem valueOf_xfade (dry wet m : F32) : valueOf (xfade dry wet m) = xf dry wet m := rfl

theorem exec_xfade (s : State) (dry wet m : F32) : exec (.xfade dry wet m) s = .next (s.setWires [xf dry wet m]) := by
  rw [← valueOf_xfade]
  rfl

/-- Settles O38: the equations of the six shapers. -/
theorem shaperOps : Obligations.ShaperOps := fun s x nb =>
  ⟨exec_hardclip s x, exec_xfmrSat s x, exec_softclip s x, exec_emberShape s x, exec_quant s x nb, exec_rectify s x⟩

/-- Settles O39: the equations of the oscillators. -/
theorem oscillators : Obligations.Oscillators := fun s p rate sr =>
  ⟨exec_lfoAdvance s p rate sr, exec_lfoSine s p, exec_lfoTri s p⟩

/-- Settles O40: the equations of the envelope follower and the gate. -/
theorem envelopeGate : Obligations.EnvelopeGate := fun s t sr env lvl ca cr =>
  ⟨exec_envCoef s t sr, exec_envStep s env lvl ca cr, exec_gate s env⟩

/-- Settles O41: the equations of the meter update, the gain map and the crossfade. -/
theorem meterGainFade : Obligations.MeterGainFade := fun s k pk o dry wet m =>
  ⟨exec_meterUpdate s k pk, exec_db2lin s o, exec_xfade s dry wet m⟩

/-! ## Signs and magnitudes (00_scope.md R9) -/

theorem magBits_fNeg (x : F32) : magBits (fNeg x) = magBits x := by
  simp only [magBits, fNeg, BitVec.toNat_xor, Nat.xor_mod_two_pow]
  simp

theorem magBits_dAbs (x : F32) : magBits (dAbs x) = magBits (daz x) := (magBits_and (daz x)).1

/-- A magnitude read again as an operand stays the magnitude of what was read. -/
theorem magBits_daz_dAbs (x : F32) : magBits (daz (dAbs x)) = magBits (daz x) := by
  have habs := magBits_eq (dAbs x)
  have hfrac := fFrac_lt (dAbs x)
  have hx := magBits_eq x
  have hdaz := magBits_daz x
  rw [magBits_dAbs] at habs
  rw [magBits_daz, magBits_dAbs]
  split
  · split at hdaz <;> omega
  · rfl

/-- `copysign` takes the magnitude of its first operand. -/
theorem magBits_dCopysign (m x : F32) : magBits (dCopysign m x) = magBits (daz m) := by
  have hsign : magBits (x &&& 0x80000000#32) = 0 := by
    simp only [magBits, BitVec.toNat_and, Nat.and_mod_two_pow]
    simp
  rw [← (magBits_and (daz m)).1]
  simp only [magBits, dCopysign, BitVec.toNat_or, Nat.or_mod_two_pow] at hsign ⊢
  rw [hsign, Nat.or_zero]

/-- An operand without units is read as a zero. -/
theorem magBits_daz_of_fUnits {x : F32} (h : fUnits (daz x) = 0) : magBits (daz x) = 0 := by
  rw [magBits_daz]
  split
  · rfl
  · next hexp =>
    rw [daz, if_neg hexp, fUnits_of_normal hexp] at h
    exact absurd h (by positivity)

theorem magBits_of_fEq_zero {x : F32} (h : fEq x 0 = true) : magBits x = 0 := by
  have hx : fKey x = if fSign x then -(magBits x : Int) else (magBits x : Int) := rfl
  have hkey : fKey x = fKey 0 := by
    simp only [fEq, Bool.and_eq_true, decide_eq_true_eq] at h
    exact h.2
  rw [hx, show fKey 0 = 0 by decide] at hkey
  split at hkey <;> omega

/-! ## Numbers in [-1, 1] -/

/-- A number in [-1, 1]. -/
def withinOne (y : F32) : Prop := fLe kn1 y = true ∧ fLe y k1 = true

theorem withinOne_iff {y : F32} : withinOne y ↔ magBits y ≤ magBits k1 := by
  have hk1 : magBits k1 = 0x3F800000 := by decide
  have hkey1 : fKey k1 = 0x3F800000 := by decide
  have hkeyn1 : fKey kn1 = -0x3F800000 := by decide
  have hy : fKey y = if fSign y then -(magBits y : Int) else (magBits y : Int) := rfl
  simp only [withinOne, fLe_iff, isNaN_eq_false, hkey1, hkeyn1, hk1, hy, show magBits kn1 = 0x3F800000 by decide]
  cases fSign y <;> simp <;> omega

theorem withinOne_of_upTo {y : F32} (h : upTo y k1) : withinOne y := ⟨fLe_trans (by decide) h.1, h.2⟩

theorem upTo_within (r : F32) : upTo (within 0 k1 r) k1 := by
  unfold within
  split
  · next h => exact Bool.and_eq_true_iff.mp h
  · exact ⟨by decide, by decide⟩

/-! ## HARDCLIP (R205) -/

theorem withinOne_clipRule {x : F32} (hx : isNaN x = false) : withinOne (clipRule x) := by
  have hdaz : isNaN (daz x) = false := by rwa [isNaN_daz]
  unfold clipRule
  split
  · exact ⟨by decide, by decide⟩
  next hlow =>
    split
    · exact ⟨by decide, by decide⟩
    next hhigh => exact ⟨fLe_of_not_fLt hdaz (by decide) hlow, fLe_of_not_fLt (by decide) hdaz hhigh⟩

/-! ## XFMR_SAT (R206) -/

theorem dMin_upTo {a b : F32} (ha : nonneg a) (hb : nonneg b) : upTo (dMin a b) (daz b) := by
  unfold dMin
  split
  · next h => exact ⟨nonneg_daz ha, fLe_of_fLt h⟩
  · have hnan := (fLe_iff.mp (nonneg_daz hb)).2.1
    exact ⟨nonneg_daz hb, fLe_iff.mpr ⟨hnan, hnan, le_rfl⟩⟩

/-- A sum that is not negative is not rounded below zero. -/
theorem nonneg_fAdd {a b : F32} (ha : isFin a = true) (hb : isFin b = true) (h : 0 ≤ fValue a + fValue b) :
    nonneg (fAdd a b) := by
  simp only [fAdd, not_nan_inf ha, not_nan_inf hb, Bool.or_false, Bool.false_eq_true, if_false]
  split
  · exact (upTo_signedZero _ (c := k1) (by decide)).1
  · refine nonneg_fRound (by decide) fun hneg => ?_
    simp only [decide_eq_true_eq] at hneg
    omega

/-- The level of XFMR_SAT above its knee is not negative; it is finite or `+inf`. -/
theorem nonneg_xfmrLevel {a : F32} (hfin : isFin a = true) (h : fLe k0_7 a = true) :
    nonneg (fAdd k0_7 (fMul (fSub a k0_7) k0_5)) := by
  have hknee : fValue (fNeg k0_7) = -(fUnits k0_7 : Int) := by decide +kernel
  have hhalf : fUnits k0_5 ≤ 2 ^ 149 := by decide +kernel
  have ha : nonneg a := fLe_trans (by decide) h
  have haUnits := fUnits_of_nonneg ha
  have hle : fUnits k0_7 ≤ fUnits a := fUnits_le_of_fLe (by decide) h
  have hexp : fExpo a ≠ 0 := fun he => by
    have hpos : 0 < fUnits k0_7 := by decide +kernel
    have hzero : fUnits a = 0 := if_pos he
    omega
  have hexcess : upTo (fSub a k0_7) a := fAdd_upTo hfin (by decide) hexp ha (by omega) (by omega)
  have hproduct : upTo (fMul (fSub a k0_7) k0_5) a :=
    fMul_upTo hexcess.1 (by decide) (hexcess.isFin hfin) (by decide) hexp ha
      (Nat.mul_le_mul hexcess.fUnits_le hhalf)
  refine nonneg_fAdd (by decide) (hproduct.isFin hfin) ?_
  rw [fUnits_of_nonneg hproduct.1, fUnits_of_nonneg (x := k0_7) (by decide)]
  positivity

theorem withinOne_xfmrRule {x : F32} (hx : isFin x = true) : withinOne (xfmrRule x) := by
  have habs : isFin (dAbs x) = true := by
    rw [isFin_iff] at hx ⊢
    rw [magBits_dAbs, magBits_daz]
    split <;> omega
  have hnonneg : nonneg (dAbs x) := nonneg_dAbs (not_nan_inf hx).1
  rw [withinOne_iff]
  unfold xfmrRule
  split
  · next habove =>
    have hknee : fLe k0_7 (dAbs x) = true := (fLe_daz (by decide) (by decide)).mp (fLe_of_fLt habove)
    have hmin := dMin_upTo (nonneg_xfmrLevel habs hknee) (b := k1) (by decide)
    rw [magBits_dCopysign, magBits_daz]
    split
    · exact Nat.zero_le _
    · exact ((upTo_iff (by decide)).mp hmin).2
  · next hbelow =>
    have hle : fLe (daz (dAbs x)) k0_7 = true :=
      fLe_of_not_fLt (by decide) (by rw [isNaN_daz]; exact (not_nan_inf habs).1) hbelow
    have hupTo : upTo (daz (dAbs x)) k1 := ⟨nonneg_daz hnonneg, fLe_trans hle (by decide)⟩
    rw [← magBits_daz_dAbs]
    exact ((upTo_iff (by decide)).mp hupTo).2

/-! ## SOFTCLIP (R207) -/

/-- A product of finite numbers is a number; it may be infinite. -/
theorem isNaN_fMul {a b : F32} (ha : isFin a = true) (hb : isFin b = true) : isNaN (fMul a b) = false := by
  have hle := roundMag_le_inf (fUnits a * fUnits b) (den := 2 ^ 149) (by decide)
  rw [fMul_of_isFin ha hb, isNaN_eq_false, fRound, (magBits_fPack _ (hle.trans_lt (by decide))).1]
  exact hle

/-- `tanh_f` answers a number in [-1, 1] (00_scope.md R8). -/
theorem withinOne_tanhF {x : F32} (hx : isNaN x = false) : withinOne (tanhF x) := by
  have hdaz : ¬ isNaN (daz x) = true := by simp [isNaN_daz, hx]
  have hrange := upTo_within (Config.tanhRaw (dAbs (daz x)))
  unfold tanhF
  dsimp only
  rw [if_neg hdaz]
  split
  · next hzero => exact withinOne_iff.mpr (by rw [magBits_daz_of_fUnits hzero]; exact Nat.zero_le _)
  split
  · exact withinOne_of_upTo hrange
  split
  · next hzeros =>
    exact withinOne_iff.mpr (by rw [magBits_of_fEq_zero (Bool.and_eq_true_iff.mp hzeros).2]; exact Nat.zero_le _)
  · rw [withinOne_iff, magBits_fNeg]
    exact withinOne_iff.mp (withinOne_of_upTo hrange)

theorem withinOne_softRule {x : F32} (hx : isFin x = true) : withinOne (softRule x) := by
  unfold softRule
  split <;> exact withinOne_tanhF (isNaN_fMul hx (by decide))

/-- Settles O42: the ranges of the three rules. -/
theorem shaperBounds : Obligations.ShaperBounds := by
  intro s x hx i hi
  simp only [List.mem_cons, List.not_mem_nil, or_false] at hi
  obtain rfl | rfl | rfl := hi
  · exact ⟨_, _, exec_hardclip s x, State.setWires_wires _ _, withinOne_clipRule (not_nan_inf hx).1⟩
  · exact ⟨_, _, exec_xfmrSat s x, State.setWires_wires _ _, withinOne_xfmrRule hx⟩
  · exact ⟨_, _, exec_softclip s x, State.setWires_wires _ _, withinOne_softRule hx⟩

end Sys2Proof.Proofs
end

section
/-! The units of 45_units_cathode.md as instructions (R230 to R233, R239, R240): a block over which the mix stays below the
threshold, a block of any length, a block of one processed frame, and the mix, prepare and reset of the units. -/

namespace Sys2Proof.Proofs

open Sys2Proof Sys2Proof.Machine Sys2Proof.Safety

/-! ## Computations that complete with a value -/

/-- From any marks, the computation has the value `a` and sets no mark that stops an operation. -/
def CompletesWith {α : Type} (c : Calc α) (a : α) : Prop := ∀ m, (c m).1 = a ∧ stopMarks (c m).2 = stopMarks m

theorem CompletesWith.pure {α : Type} (a : α) : CompletesWith (pure a : Calc α) a := fun _ => ⟨rfl, rfl⟩

theorem CompletesWith.of_unstopped {α : Type} {c : Calc α} {a : α} (hw : Writer c) (hu : Unstopped c)
    (hv : valueOf c = a) : CompletesWith c a := fun m => ⟨(hw.value m).trans hv, hu m⟩

/-- The second part of a sequence matters at the value of the first only. -/
theorem CompletesWith.bind {α β : Type} {c : Calc α} {f : α → Calc β} {a : α} {b : β} (hc : CompletesWith c a)
    (hf : CompletesWith (f a) b) : CompletesWith (c >>= f) b := fun m => by
  obtain ⟨hval, hmarks⟩ := hc m
  have hbind : (c >>= f) m = f a (c m).2 := congrArg (fun x => f x (c m).2) hval
  rw [hbind]
  exact ⟨(hf _).1, (hf _).2.trans hmarks⟩

theorem finishOp_of_completesWith {c : Calc State} {t : State} (h : CompletesWith c t) : finishOp c = .next t :=
  (finishOp_of_unstopped fun m => (h m).2).trans (congrArg _ (h {}).1)

/-! ## A mix below the threshold (45_units_cathode.md R239) -/

/-- Every value the mix takes in the next `n` frames is below the silence threshold. -/
def quietFor (n : Nat) (v : Smoother) : Prop :=
  ∀ k, 1 ≤ k → k ≤ n → dLt (advanced k v).current mixSilence = true

theorem quietFor_nextRule {n : Nat} {v : Smoother} (h : quietFor (n + 1) v) : quietFor n (nextRule v).2 :=
    fun k h1 h2 => by
      rw [advanced_nextRule]
      exact h (k + 1) (by omega) (by omega)

theorem quietFor.value {n : Nat} {v : Smoother} (h : quietFor (n + 1) v) : dLt (nextRule v).1 mixSilence = true := by
  rw [nextRule_value]
  exact h 1 le_rfl (by omega)

theorem quietFor_idle (n : Nat) {v : Smoother} (hidle : v.stepsRemaining = 0) (h : dLt v.current mixSilence = true) :
    quietFor n v := fun k _ _ => by rwa [advanced_idle k hidle]

/-- The loop of a unit whose mix is quiet advances the mix and reads no frame, at any length. `put` makes the unit's
registers of its mix. -/
theorem completesWith_unitFrames_of_quiet {U : Type} {mixNext : U → Calc (F32 × U)}
    {sample : U → F32 → F32 → F32 → Calc ((F32 × F32) × U)} {put : Smoother → U} (hm : ∀ u, Writer (mixNext u))
    (hum : ∀ u, Unstopped (mixNext u))
    (hv : ∀ v, valueOf (mixNext (put v)) = ((nextRule v).1, put (nextRule v).2)) {k i : Nat} {v : Smoother}
    {b : SampleBuffer} (h : quietFor k v) :
    CompletesWith (unitFrames mixNext sample k i (put v) b) (put (advanced k v), b) := by
  induction k generalizing i v with
  | zero => exact .pure _
  | succ k ih =>
    rw [unitFrames, ← advanced_nextRule]
    refine .bind (.of_unstopped (hm _) (hum _) (hv v)) ?_
    dsimp only
    rw [if_pos h.value]
    exact ih (quietFor_nextRule h)

/-- The same for the loop with the state put together at its end, as a unit's code runs it. -/
theorem completesWith_unitLoop_of_quiet {U : Type} {mixNext : U → Calc (F32 × U)}
    {sample : U → F32 → F32 → F32 → Calc ((F32 × F32) × U)} (whole : U → SampleBuffer → State) (put : Smoother → U)
    (hm : ∀ u, Writer (mixNext u)) (hum : ∀ u, Unstopped (mixNext u))
    (hv : ∀ v, valueOf (mixNext (put v)) = ((nextRule v).1, put (nextRule v).2)) {n : Nat} {v : Smoother}
    {b : SampleBuffer} (h : quietFor n v) :
    CompletesWith (unitFrames mixNext sample n 0 (put v) b >>= fun y => pure (whole y.1 y.2))
      (whole (put (advanced n v)) b) :=
  .bind (completesWith_unitFrames_of_quiet hm hum hv h) (.pure _)

/-- A unit whose mix is quiet has its block start and advances its mix, nothing else. -/
theorem completesWith_unitProcess_of_quiet {u : UnitId} {n : Nat} {s : State} (h : quietFor n (s.smoother (.mix u))) :
    CompletesWith (unitProcess u n s)
      ((blockStarted u s).setSmoother (.mix u) (advanced n (s.smoother (.mix u)))) := by
  cases u
  case ember =>
    exact completesWith_unitLoop_of_quiet (fun x b => { s with units := { s.units with ember := x }, buf := b })
      (fun v => { s.units.ember with mix := v }) writer_emberMix unstopped_emberMix (fun _ => valueOf_emberMix _) h
  case velvet =>
    rw [unitProcess, Velvet.run, bind_assoc]
    refine .bind (.of_unstopped (writer_velvetStart _ _) (unstopped_velvetStart _ _) (valueOf_velvetStart _ _)) ?_
    exact completesWith_unitLoop_of_quiet (fun x b => { s with units := { s.units with velvet := x }, buf := b })
      (fun v => { (blockStarted .velvet s).units.velvet with mix := v }) writer_velvetMix unstopped_velvetMix
      (fun _ => valueOf_velvetMix _) h
  case drift =>
    exact completesWith_unitLoop_of_quiet (fun x b => { s with units := { s.units with drift := x }, buf := b })
      (fun v => { s.units.drift with mix := v }) writer_driftMix unstopped_driftMix (fun _ => valueOf_driftMix _) h
  case echo =>
    exact completesWith_unitLoop_of_quiet (fun x b => { s with units := { s.units with echo := x }, buf := b })
      (fun v => { s.units.echo with mix := v }) writer_echoMix unstopped_echoMix (fun _ => valueOf_echoMix _) h
  case haze =>
    exact completesWith_unitLoop_of_quiet (fun x b => { s with units := { s.units with haze := x }, buf := b })
      (fun v => { s.units.haze with mix := v }) writer_hazeMix unstopped_hazeMix (fun _ => valueOf_hazeMix _) h
  case fracture =>
    exact completesWith_unitLoop_of_quiet (fun x b => { s with units := { s.units with fracture := x }, buf := b })
      (fun v => { s.units.fracture with mix := v }) writer_fractureMix unstopped_fractureMix
      (fun _ => valueOf_fractureMix _) h
  case prism =>
    exact completesWith_unitLoop_of_quiet (fun x b => { s with units := { s.units with prism := x }, buf := b })
      (fun v => { s.units.prism with mix := v }) writer_prismMix unstopped_prismMix (fun _ => valueOf_prismMix _) h
  case phase =>
    exact completesWith_unitLoop_of_quiet (fun x b => { s with units := { s.units with phase := x }, buf := b })
      (fun v => { s.units.phase with mix := v }) writer_phaseMix unstopped_phaseMix (fun _ => valueOf_phaseMix _) h
  case cascade =>
    exact completesWith_unitLoop_of_quiet (fun x b => { s with units := { s.units with cascade := x }, buf := b })
      (fun v => { s.units.cascade with mix := v }) writer_cascadeMix unstopped_cascadeMix
      (fun _ => valueOf_cascadeMix _) h
  case glisten =>
    exact completesWith_unitLoop_of_quiet (fun x b => { s with units := { s.units with glisten := x }, buf := b })
      (fun v => { s.units.glisten with mix := v }) writer_glistenMix unstopped_glistenMix
      (fun _ => valueOf_glistenMix _) h
  case scorch =>
    exact completesWith_unitLoop_of_quiet (fun x b => { s with units := { s.units with scorch := x }, buf := b })
      (fun v => { s.units.scorch with mix := v }) writer_scorchMix unstopped_scorchMix (fun _ => valueOf_scorchMix _) h
  case snarl =>
    rw [unitProcess, Snarl.run, bind_assoc]
    refine .bind (.of_unstopped (writer_snarlStart _ _) (unstopped_snarlStart _ _) (valueOf_snarlStart _ _)) ?_
    exact completesWith_unitLoop_of_quiet (fun x b => { s with units := { s.units with snarl := x }, buf := b })
      (fun v => { (blockStarted .snarl s).units.snarl with mix := v }) writer_snarlMix unstopped_snarlMix
      (fun _ => valueOf_snarlMix _) h
  case shred =>
    exact completesWith_unitLoop_of_quiet (fun x b => { s with units := { s.units with shred := x }, buf := b })
      (fun v => { s.units.shred with mix := v }) writer_shredMix unstopped_shredMix (fun _ => valueOf_shredMix _) h
  case grind =>
    exact completesWith_unitLoop_of_quiet (fun x b => { s with units := { s.units with grind := x }, buf := b })
      (fun v => { s.units.grind with mix := v }) writer_grindMix unstopped_grindMix (fun _ => valueOf_grindMix _) h
  case rust =>
    exact completesWith_unitLoop_of_quiet (fun x b => { s with units := { s.units with rust := x }, buf := b })
      (fun v => { s.units.rust with mix := v }) writer_rustMix unstopped_rustMix (fun _ => valueOf_rustMix _) h

theorem exec_unitInstr_of_quiet {u : UnitId} {n : Word} {s : State} (h : quietFor n.toNat (s.smoother (.mix u))) :
    exec (unitInstr u n) s =
      .next ((blockStarted u s).setSmoother (.mix u) (advanced n.toNat (s.smoother (.mix u)))) :=
  (exec_unitInstr u n s).trans (finishOp_of_completesWith (completesWith_unitProcess_of_quiet h))

/-- A block start leaves every smoother as it is (R233). -/
theorem smoother_blockStarted (u : UnitId) (s : State) (v : SmootherId) :
    (blockStarted u s).smoother v = s.smoother v := by
  rcases blockStarted_cases u s with e | ⟨c, e⟩ | ⟨c, e⟩ <;> rw [e]
  · rw [withPairCoefs, withFilterCoefs, withFilterCoefs, smoother_setFilter, smoother_setFilter]
  · rw [withPairCoefs, withFilterCoefs, withFilterCoefs, smoother_setFilter, smoother_setFilter]

theorem setSmoother_blockStarted_self (u : UnitId) (s : State) (v : SmootherId) :
    (blockStarted u s).setSmoother v (s.smoother v) = blockStarted u s := by
  rw [← smoother_blockStarted u s v, setSmoother_self]

/-- Settles O47: a quiet block reads no frame, and an idle mix stays where it is. -/
theorem silentUnitsRest : Obligations.SilentUnitsRest := by
  refine fun s u n => ⟨fun h => ⟨exec_unitInstr_of_quiet h, ?_⟩, fun hidle hsilent => ⟨?_, buf_blockStarted u s⟩⟩
  · rw [State.setSmoother_buf, buf_blockStarted]
  · rw [exec_unitInstr_of_quiet (quietFor_idle _ hidle hsilent), advanced_idle _ hidle, setSmoother_blockStarted_self]

/-! ## A block of a unit that is ready (R230) -/

theorem exec_unitInstr_of_ready {u : UnitId} {n : Word} {s : State} (h : unitReady u n.toNat s) :
    exec (unitInstr u n) s = .next (valueOf (unitProcess u n.toNat s)) :=
  (exec_unitInstr u n s).trans (finishOp_of_unstopped (unstopped_unitProcess h))

/-- A unit called by name runs the code of its tag (30_encoding.md R105). -/
theorem exec_unitProcess (u : UnitId) (n : Word) (s : State) : exec (.unitProcess u n) s = exec (unitInstr u n) s :=
  (exec_unitInstr u n s).symm

/-- Over 0 frames only the block start happens. -/
theorem exec_unitInstr_zero (u : UnitId) (s : State) : exec (unitInstr u 0) s = .next (blockStarted u s) := by
  have hquiet : quietFor (0 : Word).toNat (s.smoother (.mix u)) := fun k h1 h2 => absurd (h1.trans h2) (Nat.not_succ_le_zero 0)
  rw [exec_unitInstr_of_quiet hquiet]
  exact congrArg _ (setSmoother_blockStarted_self u s _)

theorem unitReady_of_sameConstants {u : UnitId} {n : Nat} {s t : State} (h : unitReady u n s)
    (hc : SameConstants s t) (hb : framesHeld t.buf n) : unitReady u n t := by
  obtain ⟨hn, -, hcap⟩ := h
  exact ⟨hn, hb, fun d hd => by rw [hc.cap]; exact hcap d hd⟩

theorem unitReady_blockStarted {u : UnitId} {n : Nat} {s : State} (h : unitReady u n s) :
    unitReady u n (blockStarted u s) := by
  refine unitReady_of_sameConstants h (sameConstants_blockStarted u s) ?_
  obtain ⟨-, hb, -⟩ := h
  rwa [buf_blockStarted]

/-- A frame inside the buffer leaves its unit ready. -/
theorem unitReady_unitFrame {u : UnitId} {n i : Nat} {s : State} (hi : i < Config.maxblkMax) (h : unitReady u n s) :
    unitReady u n (unitFrame u s i) := by
  refine unitReady_of_sameConstants h (sameConstants_unitFrame u s i) ?_
  obtain ⟨-, hb, -⟩ := h
  rcases buf_unitFrame (u := u) (s := s) (.inr hi) with e | ⟨-, l, r, e⟩ <;> rw [e]
  · exact hb
  · exact framesHeld_writeFrame i l r hb

theorem unitReady_unitProcess {u : UnitId} {n : Nat} {s : State} (h : unitReady u n s) :
    unitReady u n (valueOf (unitProcess u n s)) := by
  have hn : n ≤ Config.maxblkMax := h.1
  rw [valueOf_unitBlock u s hn]
  exact List.foldlRecOn (motive := unitReady u n) _ _ (unitReady_blockStarted h) fun t ht i hi =>
    unitReady_unitFrame ((List.mem_range.mp hi).trans_le hn) ht

/-- Settles O46: a ready unit completes, with the frame of a block. -/
theorem unitsComplete : Obligations.UnitsComplete := by
  refine ⟨fun s u n h => ?_, fun s u => exec_unitInstr_zero u s⟩
  have hexec := exec_unitInstr_of_ready h
  exact ⟨_, hexec, (exec_unitProcess u n s).trans hexec, unitProcess_frame u n.toNat s,
    fun w hw => sameUnit_unitProcess hw n.toNat s, sameFrom_unitProcess h.1 u s, unitReady_unitProcess h⟩

/-! ## One processed frame (R234 to R238, R240) -/

/-- The frame that `frameAt` describes makes a unit with sized memories ready for it. -/
theorem unitReady_of_frameAt {u : UnitId} {s : State} {l r m : F32} (h : frameAt u s l r m)
    (hcap : ∀ d ∈ owned u, (s.delay d).cap ≠ 0) : unitReady u 1 s := by
  obtain ⟨hl, hr, -, -⟩ := h
  refine ⟨by omega, fun ch i hi => ?_, hcap⟩
  obtain rfl : i = 0 := by omega
  cases ch
  · rw [hl]; exact Option.some_ne_none l
  · rw [hr]; exact Option.some_ne_none r

/-- A frame whose mix is not below the threshold is processed. -/
theorem unitFrame_of_frameAt {u : UnitId} {s : State} {l r m : F32} (h : frameAt u s l r m) :
    unitFrame u s 0 = processedFrame u s 0 l r m := by
  obtain ⟨hl, hr, hm, hloud⟩ := h
  simp only [unitFrame, wordAt, hl, hr, hm, hloud, Option.getD_some, Bool.false_eq_true, if_false]

theorem frameAt_blockStarted {u : UnitId} {s : State} {l r m : F32} (h : frameAt u s l r m) :
    frameAt u (blockStarted u s) l r m := by
  rwa [frameAt, buf_blockStarted, smoother_blockStarted]

/-- A unit's code over one frame that is processed: the block start and the frame of its rule. -/
theorem exec_unitInstr_one {u : UnitId} {s : State} {l r m : F32} (h : frameAt u s l r m)
    (hcap : ∀ d ∈ owned u, (s.delay d).cap ≠ 0) :
    exec (unitInstr u 1) s = .next (processedFrame u (blockStarted u s) 0 l r m) := by
  rw [← unitFrame_of_frameAt (frameAt_blockStarted h)]
  exact blocksAreTheirFrames.1 s u 1 (unitReady_of_frameAt h hcap)

/-- Settles O43: one processed frame of each unit, whose memories have a size. -/
theorem cathodeFrames : Obligations.CathodeFrames := fun _ _ _ _ =>
  ⟨fun h => exec_unitInstr_one (u := .ember) h nofun, fun h => exec_unitInstr_one (u := .velvet) h nofun,
    fun h hd => exec_unitInstr_one (u := .drift) h (List.forall_mem_singleton.mpr hd),
    fun h hd => exec_unitInstr_one (u := .echo) h (List.forall_mem_singleton.mpr hd),
    fun h hA hB => exec_unitInstr_one (u := .haze) h
      (List.forall_mem_cons.mpr ⟨hA, List.forall_mem_singleton.mpr hB⟩)⟩

/-! ## The mix, the preparation and the reset of the units (R231, R232) -/

/-- UNIT.SETMIX is SV.SETTARGET of the unit's mix (R231). -/
theorem exec_unitSetmix (s : State) (u : UnitId) (v : F32) :
    exec (.unitSetmix u v) s = .next (retargeted (.mix u) v s) := exec_svSettarget s (.mix u) v

/-- UNIT.PREPARE takes the units from SIZE followed by RESET_STATE (R232, log 19). -/
theorem exec_unitPrepare (s : State) :
    exec .unitPrepare s = .next { s with units := (resetState (valueOf (sizeState s))).units } := by
  rw [valueOf_sizeState]
  rfl

/-- UNIT.RESET takes the units from RESET_STATE (R232). -/
theorem exec_unitReset (s : State) : exec .unitReset s = .next { s with units := (resetState s).units } := rfl

/-- Settles O49: the equations of the three instructions. -/
theorem unitMixAndReset : Obligations.UnitMixAndReset := fun s =>
  ⟨exec_unitSetmix s, valueOf (sizeState s), resetState (valueOf (sizeState s)), resetState s, rfl, rfl, rfl,
    exec_unitPrepare s, exec_unitReset s⟩

end Sys2Proof.Proofs
end

section
/-! The units of 46_units_filament.md as instructions (R250 to R254). None of them has a block start (45_units_cathode.md
R233), so over one frame that is processed the code of each is the frame of its rule. -/

namespace Sys2Proof.Proofs

open Sys2Proof Sys2Proof.Machine Sys2Proof.Safety

/-- Of the fifteen units only Velvet and Snarl have a block start (R233). -/
theorem blockStarted_eq_self {u : UnitId} (hv : u ≠ .velvet) (hs : u ≠ .snarl) (s : State) : blockStarted u s = s := by
  cases u
  case velvet => exact absurd rfl hv
  case snarl => exact absurd rfl hs
  all_goals rfl

/-- A unit without a block start: its code over one frame that is processed is the frame of its rule (R230). -/
theorem exec_unitInstr_one_frame {u : UnitId} (hv : u ≠ .velvet) (hs : u ≠ .snarl) {s : State} {l r m : F32}
    (h : frameAt u s l r m) (hcap : ∀ d ∈ owned u, (s.delay d).cap ≠ 0) :
    exec (unitInstr u 1) s = .next (processedFrame u s 0 l r m) := by
  rw [exec_unitInstr_one h hcap, blockStarted_eq_self hv hs]

/-- Settles O44: each unit by its rule, the sizes of its memories being those of the instances it owns. -/
theorem filamentFrames : Obligations.FilamentFrames := by
  intro s l r m
  refine ⟨fun h => ?fracture, fun h => ?prism, fun h hline => ?phase, fun h hline => ?cascade,
    fun h hmain hshim => ?glisten⟩
  case fracture =>
    have hcap : ∀ d ∈ owned .fracture, (s.delay d).cap ≠ 0 := nofun
    exact exec_unitInstr_one_frame (u := .fracture) nofun nofun h hcap
  case prism =>
    have hcap : ∀ d ∈ owned .prism, (s.delay d).cap ≠ 0 := nofun
    exact exec_unitInstr_one_frame (u := .prism) nofun nofun h hcap
  case phase =>
    have hcap : ∀ d ∈ owned .phase, (s.delay d).cap ≠ 0 := List.forall_mem_singleton.mpr hline
    exact exec_unitInstr_one_frame (u := .phase) nofun nofun h hcap
  case cascade =>
    have hcap : ∀ d ∈ owned .cascade, (s.delay d).cap ≠ 0 := List.forall_mem_singleton.mpr hline
    exact exec_unitInstr_one_frame (u := .cascade) nofun nofun h hcap
  case glisten =>
    have hcap : ∀ d ∈ owned .glisten, (s.delay d).cap ≠ 0 :=
      List.forall_mem_cons.mpr ⟨hmain, List.forall_mem_singleton.mpr hshim⟩
    exact exec_unitInstr_one_frame (u := .glisten) nofun nofun h hcap

end Sys2Proof.Proofs
end

section
/-! The units of 47_units_steel.md as instructions (R265 to R269). Only Snarl has a block start (45_units_cathode.md R233),
so its frame is read on the coefficients that start has set; Grind and Rust need their memories sized (log 17). -/

namespace Sys2Proof.Proofs

open Sys2Proof Sys2Proof.Machine Sys2Proof.Safety

/-- Settles O45: each unit by its rule, Snarl after its block start, Grind and Rust with the sizes of the memories they
own. -/
theorem steelFrames : Obligations.SteelFrames := by
  intro s l r m
  refine ⟨fun h => ?scorch, fun h => ?snarl, fun h => ?shred, fun h hline => ?grind, fun h hA hB => ?rust⟩
  case scorch =>
    have hcap : ∀ d ∈ owned .scorch, (s.delay d).cap ≠ 0 := nofun
    exact exec_unitInstr_one_frame (u := .scorch) nofun nofun h hcap
  case snarl =>
    have hcap : ∀ d ∈ owned .snarl, (s.delay d).cap ≠ 0 := nofun
    exact exec_unitInstr_one (u := .snarl) h hcap
  case shred =>
    have hcap : ∀ d ∈ owned .shred, (s.delay d).cap ≠ 0 := nofun
    exact exec_unitInstr_one_frame (u := .shred) nofun nofun h hcap
  case grind =>
    have hcap : ∀ d ∈ owned .grind, (s.delay d).cap ≠ 0 := List.forall_mem_singleton.mpr hline
    exact exec_unitInstr_one_frame (u := .grind) nofun nofun h hcap
  case rust =>
    have hcap : ∀ d ∈ owned .rust, (s.delay d).cap ≠ 0 :=
      List.forall_mem_cons.mpr ⟨hA, List.forall_mem_singleton.mpr hB⟩
    exact exec_unitInstr_one_frame (u := .rust) nofun nofun h hcap

end Sys2Proof.Proofs
end

section
/-! PREAMP and PREAMP.SETSHELF as instructions (48_preamp.md R280, R282): what every frame of the stage keeps, its block
keeps too. -/

namespace Sys2Proof.Proofs

open Sys2Proof Sys2Proof.Machine Sys2Proof.Safety

/-! ## One frame (R280) -/

theorem framesHeld_one {b : SampleBuffer} {l r : F32} (hl : b.get? .left 0 = some l) (hr : b.get? .right 0 = some r) :
    framesHeld b 1 := fun ch i hi => by
  obtain rfl : i = 0 := by omega
  cases ch
  · rw [hl]; exact Option.some_ne_none l
  · rw [hr]; exact Option.some_ne_none r

/-! ## A block (R280) -/

theorem exec_preamp_of_held {n : Word} {s : State} (hn : n.toNat ≤ Config.maxblkMax) (hb : framesHeld s.buf n.toNat) :
    exec (.preamp n) s = .next (valueOf (preamp n.toNat s)) := finishOp_of_unstopped (unstopped_preamp hn hb)

/-- What every frame of the stage keeps, a block inside the buffer keeps. -/
theorem preamp_keeps {P : State → Prop} (hP : ∀ t i, P t → P (preampFrame t i)) {n : Nat} (hn : n ≤ Config.maxblkMax)
    {s : State} (h : P s) : P (valueOf (preamp n s)) := by
  rw [valueOf_preampBlock s hn]
  exact List.foldlRecOn (motive := P) _ _ h fun t ht i _ => hP t i ht

theorem sameConstants_preamp {n : Nat} (hn : n ≤ Config.maxblkMax) (s : State) :
    SameConstants s (valueOf (preamp n s)) :=
  preamp_keeps (fun t i h => h.trans (sameConstants_preampFrame t i)) hn (.refl s)

theorem framesHeld_preamp {n : Nat} (hn : n ≤ Config.maxblkMax) {s : State} (h : framesHeld s.buf n) :
    framesHeld (valueOf (preamp n s)).buf n :=
  preamp_keeps (P := fun t => framesHeld t.buf n) (fun _ i ht => framesHeld_writeFrame i _ _ ht) hn h

/-! ## The tone shelf (R282) -/

theorem exec_preampSetshelf (s : State) (tn : F32) :
    exec (.preampSetshelf tn) s = .next
      ((s.setFilter .shelfL (withCoefs s.pre.shelfL (shelfCoefs tn s.sr))).setFilter .shelfR
        (withCoefs s.pre.shelfR (shelfCoefs tn s.sr))) := by
  change execPreampSetshelf tn s = _
  rw [execPreampSetshelf, valueOf_setShelf]
  rfl

/-- Settles O51: a block keeps the constants of the DC blockers (42_biquad.md R178) and every frame from its end up. -/
theorem preampCompletes : Obligations.PreampCompletes := by
  refine ⟨fun s n hn hb => ?_, exec_preampSetshelf⟩
  obtain ⟨-, -, -, -, -, hcoefs⟩ := sameConstants_preamp hn s
  exact ⟨_, exec_preamp_of_held hn hb, preamp_frame n.toNat s, hcoefs (.dcL, .hp, k10, Config.qDc) (by decide),
    hcoefs (.dcR, .hp, k10, Config.qDc) (by decide), sameFrom_preamp hn s, framesHeld_preamp hn hb⟩

/-- Settles O50: the block of one frame is the fold of its one frame. -/
theorem preampFrame : Obligations.PreampFrame := by
  obtain ⟨-, hblock⟩ := blocksAreTheirFrames
  exact fun s l r hl hr => hblock s 1 (by decide) (framesHeld_one hl hr)

end Sys2Proof.Proofs
end

section
/-! RESET run twice (70_reset_and_hazards.md R333, 40_host_commands.md R143): every part of RESET_STATE is the same when it
is run again, and it sees no port. -/

namespace Sys2Proof.Proofs

open Sys2Proof Sys2Proof.Machine Sys2Proof.Safety

/-! ## RESET_STATE, part by part (R143) -/

@[simp] theorem snap_snap (v : Smoother) : v.snap.snap = v.snap := rfl

@[simp] theorem reset_reset (f : Biquad) : f.reset.reset = f.reset := rfl

/-- The words DL.CLEAR keeps are those it keeps again (43_delay_line.md R191; log 18). -/
theorem dlyClear_dlyClear (w : Words) (cap : Nat) : (w.dlyClear cap).dlyClear cap = w.dlyClear cap :=
  List.filter_eq_self.mpr fun _ hc => (List.mem_filter.mp hc).2

@[simp] theorem clear_clear (d : DelayLine) : d.clear.clear = d.clear := by
  simp only [DelayLine.clear, dlyClear_dlyClear]

theorem preampResetState_idem (p : Preamp) : p.resetState.resetState = p.resetState := rfl

theorem unitsResetState_idem (u : Units) : u.resetState.resetState = u.resetState := by
  simp only [Units.resetState, snap_snap, reset_reset, clear_clear]

theorem resetState_idem (s : State) : resetState (resetState s) = resetState s := by
  simp only [resetState, preampResetState_idem, unitsResetState_idem]

/-- RESET_STATE sees no port. -/
theorem resetState_setPort (s : State) (p : Port) (x : PortIO) :
    resetState (s.setPort p x) = (resetState s).setPort p x := by
  cases p <;> rfl

theorem port_resetState (s : State) (p : Port) : (resetState s).port p = s.port p := by cases p <;> rfl

theorem resetState_respond (s : State) (v : Word) : resetState (s.respond v) = (resetState s).respond v := by
  rw [State.respond, State.send, resetState_setPort, ← port_resetState]
  rfl

/-! ## RESET (40_host_commands.md R134) -/

theorem exec_reset_prepared {s : State} (hg : s.granted = .audio) (hp : s.status.prepared = true) :
    exec .reset s = .next ((resetState s).respond 0) :=
  (onPort_allowed (by rw [hg]; rfl) _).trans (if_pos hp)

/-- Settles O21: the state RESET answers in is one RESET_STATE leaves as it is. -/
theorem resetIdempotent : Obligations.ResetIdempotent := by
  intro s hg hp
  have hg' : ((resetState s).respond 0).granted = .audio := (State.respond_granted _ _).trans hg
  have hp' : ((resetState s).respond 0).status.prepared = true := by rw [State.respond_status]; exact hp
  refine ⟨_, exec_reset_prepared hg hp, ?_⟩
  rw [exec_reset_prepared hg' hp', resetState_respond, resetState_idem]

end Sys2Proof.Proofs
end

section
/-! PROCESS while `bypass` is latched (49_chain_and_meter.md R295, 40_host_commands.md R135): the latch alone runs. APPLY_PARAMS
changes no filter, no delay memory and no meter. -/

namespace Sys2Proof.Proofs

open Sys2Proof Sys2Proof.Machine Sys2Proof.Safety

/-! ## What APPLY_PARAMS leaves of the register groups (R142) -/

theorem filter_restored (s : State) (vs : List SmootherId) (t : State) (f : FilterId) :
    (restored s vs t).filter f = t.filter f := by
  induction vs generalizing t with
  | nil => rfl
  | cons v vs ih => exact (ih _).trans (filter_setSmoother t v _ f)

theorem delay_restored (s : State) (vs : List SmootherId) (t : State) (d : DelayId) :
    (restored s vs t).delay d = t.delay d := by
  induction vs generalizing t with
  | nil => rfl
  | cons v vs ih => exact (ih _).trans (delay_setSmoother t v _ d)

theorem filter_applied (s : State) (f : FilterId) : (applied s).filter f = s.filter f := by
  have h := filter_restored s allSmoothers (applied s) f
  rw [← h]
  exact (congrArg (·.filter f) (smoothersFrom_applied s)).trans (filter_congr rfl rfl f)

theorem delay_applied (s : State) (d : DelayId) : (applied s).delay d = s.delay d := by
  have h := delay_restored s allSmoothers (applied s) d
  rw [← h]
  exact (congrArg (·.delay d) (smoothersFrom_applied s)).trans (delay_congr rfl d)

theorem meters_applied (s : State) : (applied s).meters = s.meters := by
  have h := applied_frame s
  generalize applied s = t at h ⊢
  exact (congrArg State.meters h :)

/-! ## The latch with and without a transition of `bypass` (R135) -/

theorem latched_same {s : State} (h : latchedBypass s = s.bypassPrev) : latched s = applied s := by
  have hne : ¬ (latchedBypass s != s.bypassPrev) = true := by simp [h]
  rw [latched_eq, bypassPrev_applied, if_neg hne]

theorem neutral_latched {s : State} (h : latchedBypass s ≠ s.bypassPrev) : neutral (latched s) := by
  rw [latched_eq, bypassPrev_applied, if_pos (by simpa using h)]
  exact neutral_congr (s := resetState (applied s)) rfl rfl rfl (neutral_resetState _)

/-! ## A bypassed PROCESS (R295) -/

/-- A bypassed block is as clean as its latch: it reads no sample and computes nothing else. -/
theorem blockClean_bypassed {n : Nat} {s : State} (hb : latchedBypass s = true) (hc : marksOf (processLatch s) = {}) :
    blockClean n s := by
  rw [blockClean, processBlock_bypassed n hb, marksOf_bind _ fun _ => Writer.pure _, hc, marksOf_pure, Marks.join_empty]

/-- Settles O22: the latched state and one response; the latch is APPLY_PARAMS where `bypass` was in force already, and ends
in RESET_STATE where it was not. -/
theorem bypassLeavesBuffer : Obligations.BypassLeavesBuffer := by
  intro s n hallowed hbypass hlatch
  have hb : latchedBypass s = true := by simpa [latchedBypass] using hbypass
  have hpre : ((latched s).respond 0).pre = (latched s).pre := State.respond_pre _ _
  have hunits : ((latched s).respond 0).units = (latched s).units := State.respond_units _ _
  have hmeters : ((latched s).respond 0).meters = (latched s).meters := State.respond_meters _ _
  refine ⟨_, exec_process_bypassed hallowed hb (blockClean_bypassed hb hlatch), rfl, ?buffer, ?bypass, fun hprev => ?again,
    fun hprev => ?first⟩
  case buffer => rw [State.respond_buf, (samePeriphery_latched s).buf]
  case bypass => rw [State.respond_bypassPrev, bypassPrev_latched, hb]
  case again =>
    have hsame : latched s = applied s := latched_same (hb.trans hprev.symm)
    refine ⟨?_, fun f => ?_, fun d => ?_, fun v => ?_⟩
    · rw [hmeters, hsame, meters_applied]
    · rw [filter_congr hpre hunits, hsame, filter_applied]
    · rw [delay_congr hunits, hsame, delay_applied]
    · rw [smoother_congr hpre hunits, hsame, smoother_applied]
  case first => exact neutral_congr hpre hunits hmeters (neutral_latched (by simp [hb, hprev]))

end Sys2Proof.Proofs
end

section
/-! Refusals and the sticky bits of STATUS (60_exceptions.md R301, R305, R312): what `raise` makes of the state, that no step
clears a sticky bit, and that E_PORT is raised on a port without the right and on no other. -/

namespace Sys2Proof.Proofs

open Sys2Proof Sys2Proof.Machine Sys2Proof.Safety

/-! ## The sticky bits -/

theorem sticky_congr {s t : State} (h : t.status = s.status) (e : Err) : t.sticky e = s.sticky e := by
  cases e <;> simp only [State.sticky, h]

theorem sticky_setSticky (s : State) (e e' : Err) :
    (s.setSticky e).sticky e' = if e' = e then true else s.sticky e' := by
  cases e <;> cases e' <;> rfl

theorem sticky_raise (e e' : Err) (s : State) : (raise e s).sticky e' = if e' = e then true else s.sticky e' := by
  rw [← sticky_setSticky]
  exact sticky_congr (State.send_status _ _) e'

/-! ## The STATUS word (10_state.md R34) -/

/-- The sticky bit of a refusal is bit 7 + code of the word, and its setting changes no other bit (R301). -/
theorem statusWord_setSticky (e : Err) (s : State) :
    (s.setSticky e).statusWord = s.statusWord ||| bitAt true (7 + e.code.toNat) := by
  refine BitVec.eq_of_getLsbD_eq fun j hj => ?_
  rw [BitVec.getLsbD_or, getLsbD_bitAt _ _ hj, getLsbD_statusWord _ hj, getLsbD_statusWord _ hj]
  by_cases h : j = 7 + e.code.toNat
  case pos => cases e <;> simp [h, State.setSticky, Err.code]
  case neg => cases e <;> simp_all [State.setSticky, Err.code]

/-- A response is no bit of STATUS. -/
theorem statusWord_send (s : State) (r : RspWord) : (s.send r).statusWord = s.statusWord := by
  simp only [State.statusWord, State.send_status, State.send_bypassPrev, State.send_family]

/-! ## `raise` (R305) -/

theorem statusWord_raise (e : Err) (s : State) :
    (raise e s).statusWord = s.statusWord ||| (1#32 <<< (7 + e.code.toNat)) :=
  (statusWord_send _ _).trans (statusWord_setSticky e s)

theorem port_raise (e : Err) (s : State) :
    (raise e s).port s.granted =
      { s.port s.granted with responses := (s.port s.granted).responses ++ [rspWord e.code 0] } := by
  have h := State.send_port (s.setSticky e) (rspWord e.code 0)
  rwa [State.setSticky_granted, State.setSticky_port] at h

theorem port_raise_ne (e : Err) (s : State) {q : Port} (h : q ≠ s.granted) : (raise e s).port q = s.port q := by
  rw [raise, State.send_port_ne _ _ (by rwa [State.setSticky_granted]), State.setSticky_port]

theorem setPort_frame (s : State) (p : Port) (x : PortIO) (st : Status) (a c m : PortIO) :
    { s.setPort p x with status := st, audio := a, control := c, monitor := m } =
      { s with status := st, audio := a, control := c, monitor := m } := by
  cases p <;> rfl

theorem setSticky_frame (s : State) (e : Err) (st : Status) (a c m : PortIO) :
    { s.setSticky e with status := st, audio := a, control := c, monitor := m } =
      { s with status := st, audio := a, control := c, monitor := m } := by
  cases e <;> rfl

/-- A refusal changes STATUS and the ports only. -/
theorem raise_frame (e : Err) (s : State) :
    { raise e s with status := s.status, audio := s.audio, control := s.control, monitor := s.monitor } = s :=
  (setPort_frame (s.setSticky e) _ _ _ _ _ _).trans (setSticky_frame s e _ _ _ _)

/-! ## No step clears a sticky bit (R305) -/

theorem status_latched (s : State) : (latched s).status = s.status := by
  have h := latched_frame s
  generalize latched s = t at h ⊢
  exact (congrArg State.status h :)

theorem status_unitProcess (u : UnitId) (n : Nat) (s : State) : (valueOf (unitProcess u n s)).status = s.status :=
  (congrArg State.status (unitProcess_frame u n s) :)

theorem status_processFrames {n : Nat} {s : State} (hc : marksOf (processFrames n s) = {}) :
    (valueOf (processFrames n s)).status = s.status :=
  (congrArg State.status (blockKeeps_processFrames hc).outside :)

/-- The effect of a command is no sticky bit: only a refusal sets one. -/
theorem CommandEffect.sticky {s u : State} (hu : CommandEffect s u) (e : Err) : u.sticky e = s.sticky e := by
  cases hu
  case none => rfl
  case config r x => exact sticky_congr (State.setCfg_status s r x) e
  case holder h data => exact sticky_congr (State.setHolder_status s h _) e
  case write ch i v hi => exact sticky_congr rfl e
  case prepare =>
    have h := status_prepare s
    cases e <;> simp only [State.sticky, h]
  case reset => exact sticky_congr rfl e
  case bypassed hp => exact sticky_congr (status_latched s) e
  case block n hp hc => exact sticky_congr ((status_processFrames hc).trans (status_latched s)) e

theorem Answer.sticky {s t : State} (h : Answer s t) {e : Err} (he : s.sticky e = true) : t.sticky e = true := by
  cases h with
  | refused e' => rw [sticky_raise, he, ite_self]
  | performed v hu => rw [State.respond, sticky_congr (State.send_status _ _), hu.sticky, he]

theorem CodeEffect.sticky {s t : State} (h : CodeEffect s t) (e : Err) : t.sticky e = s.sticky e := by
  cases h with
  | unit u n _ => exact sticky_congr (status_unitProcess u n s) e
  | coefs f c => exact sticky_congr (State.setFilter_status s f _) e

theorem sticky_step {s t : State} {e : Err} (he : s.sticky e = true) (h : step s = .next t) : t.sticky e = true := by
  rcases step_cases h with ⟨c, cs, i, -, hi, hrun⟩ | ⟨-, -, rfl⟩ | ⟨p, w, ws, -, -, hrun⟩
  · exact ((effect_of_code hi hrun).sticky e).trans ((sticky_congr rfl e).trans he)
  · exact he
  · exact (answers_runCommand _ _ _ hrun).sticky ((sticky_congr (State.setPort_status s p _) e).trans he)

/-- Settles O6: the laws of `raise`, and the sticky bits over every step. -/
theorem raiseIsPrecise : Obligations.RaiseIsPrecise :=
  ⟨⟨rfl, rfl, rfl, rfl, rfl, rfl⟩,
    fun e s => ⟨statusWord_raise e s, (sticky_raise e e s).trans (if_pos rfl),
      fun e' hne => (sticky_raise e e' s).trans (if_neg hne), raise_prepared e s, port_raise e s,
      fun _ hq => port_raise_ne e s hq, raise_frame e s⟩,
    fun _ _ _ => sticky_step⟩

/-! ## The rights of the ports (R312) -/

/-- A refusal that no check of the list raises is not that of its first failing check. -/
theorem firstFailing_ne {e : Err} {cs : List (Err × Bool)} (h : ∀ c ∈ cs, c.1 ≠ e) : firstFailing cs ≠ some e := by
  intro hf
  obtain ⟨c, hc, he⟩ := Option.map_eq_some_iff.mp hf
  exact h c (List.mem_of_find?_eq_some hc) he

/-- The port check is the first one, and the only one that refuses with E_PORT (30_encoding.md R107). -/
theorem firstError_eq_port_iff {w : CmdWord} {s : State} {op : Opcode} (hop : opcodeOf (opField w) = some op) :
    firstError w s = some .port ↔ s.granted ∉ rights op := by
  rw [firstError_of_opcode hop, checks]
  by_cases h : s.granted ∈ rights op
  · have hpass : (!(rights op).contains s.granted) = false := by simpa using h
    rw [hpass]
    exact iff_of_false (firstFailing_ne (cs := (checks op w s).tail) (by simp [checks])) (not_not_intro h)
  · have hfail : (!(rights op).contains s.granted) = true := by simpa using h
    rw [hfail]
    exact iff_of_true rfl h

/-- Settles O7 by the order of the checks: a command is its instruction, and its first failing check the port check exactly
on a port without the right. -/
theorem portRights : Obligations.PortRights := by
  intro w s op i hi
  obtain ⟨hop, -, -⟩ := decodeCmd_eq_instr hi
  have hrun : runCommand w s = exec i s := by simp only [runCommand, hi]
  have hcheck := answersCheck_runCommand w s
  have hport := firstError_eq_port_iff (s := s) hop
  rw [hrun] at hcheck
  refine ⟨fun hno => ?_, fun hyes t ht => ?_⟩
  · rwa [hport.mpr hno] at hcheck
  · cases he : firstError w s with
    | none =>
      rw [he] at hcheck
      obtain ⟨u, v, hu, rfl⟩ := hcheck t ht
      exact (sticky_congr (State.respond_status u v) .port).trans (hu.sticky .port)
    | some e =>
      rw [he] at hcheck
      obtain rfl : raise e s = t := Host.Outcome.next.inj (hcheck.symm.trans ht)
      have hne : Err.port ≠ e := fun h => hport.mp (h ▸ he) hyes
      exact (sticky_raise e .port s).trans (if_neg hne)

end Sys2Proof.Proofs
end
